-- ==== Sys2Proof/Word.lean ====
section
/-! DEFINITION. The machine words of PWMENC (00_scope.md R7; 30_encoding.md R61): all values are unsigned. -/

namespace Sys2Proof

/-- `u32` of R7. -/
abbrev U32 := BitVec 32

/-- `u64` of R7. -/
abbrev U64 := BitVec 64

/-- A one-bit register field (R17, R18): 0 or 1. -/
abbrev Bit := BitVec 1

/-- What the host puts at the interface: a command word of 128 bits (R61), or the 32-bit input of the Clock Divider
Selector, which is no command (R60; format PSC32 of the opcode table; DESIGN CHOICE, log 5). -/
inductive HostWord where
  | cmd (w : BitVec 128)
  | psc (p : U32)
  deriving DecidableEq, Repr

/-- A command word from its four 32-bit words, most significant first (R61). -/
def HostWord.ofWords (w3 w2 w1 w0 : U32) : HostWord := .cmd (w3 ++ w2 ++ w1 ++ w0)

end Sys2Proof
end

