-- ==== Sys2Proof/Config.lean ====
section
/-! DEFINITION. What an instance or an implementation fixes (00_scope.md R6, 10_state.md R10) and the values the spec
leaves open. A constant declared `opaque` has no body: no proof can learn its value. Of the OPEN parameters P7 to P11 of
R6 there is one each, the same for all instances of a platform (DESIGN CHOICE, log 33). -/

namespace Sys2Proof

/-- The members of the configuration that are plain data (R10: P2 to P5 of R6); `IS_ENHANCED` is held as the kind of
the register block (log 7). `BASE` and `CLOCK_ID` are opaque to PWMENC; the model identifies them by a number
(DESIGN CHOICE, log 12), to which the view of fields at addresses adds an offset in the case of `BASE` (log 34). -/
structure InstanceConfig where
  base      : Nat
  channels  : U32
  prescaler : U32
  clockId   : Nat
  deriving DecidableEq, Repr, Inhabited

/-- The configuration bound at reset (R220; DESIGN CHOICE, log 6: an uninterpreted constant). -/
opaque Config.bound : InstanceConfig

/-- `IS_ENHANCED` of the instance bound at reset (R2; DESIGN CHOICE, log 6). -/
opaque Config.boundEnhanced : Bool

/-- The number of the instance bound at reset among the instances of its platform (R202; DESIGN CHOICE, log 32). -/
opaque Config.boundIdent : Nat

/-- The eight prescalers the selector recognizes (R80). -/
inductive Recognized where
  | p1 | p2 | p4 | p8 | p16 | p32 | p40 | p64
  deriving DecidableEq, Repr, Inhabited

/-- A position for each recognized prescaler, from 0 to 7; it has no meaning for the hardware. -/
def Recognized.index : Recognized → Fin 8
  | .p1 => 0
  | .p2 => 1
  | .p4 => 2
  | .p8 => 3
  | .p16 => 4
  | .p32 => 5
  | .p40 => 6
  | .p64 => 7

/-- By how much `DIV_CODE_W` exceeds 3 (P7: OPEN; one for all instances, log 33). -/
opaque Config.divCodeExtra : Nat

/-- `DIV_CODE_W`: OPEN, at least 3 (R6 P7). -/
def Config.divCodeW : Nat := 3 + Config.divCodeExtra

/-- A divider code: a value of the clock-division register field (R80). -/
abbrev DivCode := BitVec Config.divCodeW

/-- An unknown permutation of the field's values (P8: OPEN). Every assignment of pairwise distinct codes to the eight
prescalers is some permutation taken at their positions (log 9; one for all instances, log 33). -/
opaque Config.divCodeAt : Equiv.Perm (Fin (2 ^ Config.divCodeW))

/-- Each position is a value of the field, since `DIV_CODE_W` is at least 3. -/
theorem Recognized.index_lt (r : Recognized) : r.index.val < 2 ^ Config.divCodeW :=
  Nat.lt_of_lt_of_le (show r.index.val < 2 ^ 3 from r.index.isLt)
    (Nat.pow_le_pow_right (by decide) (Nat.le_add_right 3 _))

/-- `DIV_CODE[p]` (R6 P8, R80): eight values of which only the pairwise distinctness is known. -/
def Config.divCode (r : Recognized) : DivCode :=
  BitVec.ofFin (Config.divCodeAt ⟨r.index.val, r.index_lt⟩)

/-- `CLKSRC` (R17, R18): the named member, and the members the spec does not name, which are told apart by a number (D7;
log 10). -/
inductive ClkSrc where
  | internal40M
  | other (n : Nat)
  deriving DecidableEq, Repr, Inhabited

/-- `ENH.MODE` (R17; log 10). -/
inductive EnhMode where
  | pwmManual
  | other (n : Nat)
  deriving DecidableEq, Repr, Inhabited

/-- `STD.MODE` (R18; log 10). -/
inductive StdMode where
  | userDefined
  | other (n : Nat)
  deriving DecidableEq, Repr, Inhabited

/-! `ENUM_ENC` (R6 P9: OPEN; log 10; one for all instances, log 33): for each enumerated field, how many bits it has and the bits of each member. -/

opaque Config.clkSrcW : Nat
opaque Config.clkSrcCode : ClkSrc → BitVec Config.clkSrcW
opaque Config.enhModeW : Nat
opaque Config.enhModeCode : EnhMode → BitVec Config.enhModeW
opaque Config.stdModeW : Nat
opaque Config.stdModeCode : StdMode → BitVec Config.stdModeW

/-- Where a register field lies: the byte offset from `BASE` of its register, and the position there of its lowest bit. -/
structure FieldPlace where
  offset : Nat
  bit    : Nat
  deriving DecidableEq, Repr, Inhabited

/-- The places of the fields `x[i]` of each variant's block (R17, R18), by field number. -/
structure RegLayout where
  enh : Nat → FieldPlace
  std : Nat → FieldPlace
  deriving Inhabited

/-- `REG_LAYOUT` (R6 P10: OPEN; log 31; one for all instances, log 33). -/
opaque Config.regLayout : RegLayout

/-- A value that the pin-mux collaborator's error can have. -/
opaque Config.depErrFirst : U64

/-- Which further values the pin-mux collaborator's error can have. -/
opaque Config.depErrMore : U64 → Bool

/-- Whether a value can be the pin-mux collaborator's error. -/
def Config.isDepErr (v : U64) : Bool := v == Config.depErrFirst || Config.depErrMore v

/-- `DEP_ERR` (R6 P11: OPEN, opaque): an unknown set of values, not empty, each held as the 64 bits that the response
carries for it (R65; log 11; one for all instances, log 33). -/
abbrev DepErr := { v : U64 // Config.isDepErr v = true }

/-- The pin-mux service's answer (R103): `ok` or `fail(e)`. -/
inductive PinmuxAnswer where
  | ok
  | fail (e : DepErr)
  deriving DecidableEq, Repr, Inhabited

/-- FREE VALUE: the answer of the pin-mux service to the `n`-th call of instance `k`, as `pinmuxAnswer k n`, where the
state does not fix it (R100 line 2, R8 `draw`, R202; log 3). -/
opaque Config.pinmuxAnswer : Nat → Nat → PinmuxAnswer

/-! The values that the registers of each instance, named by its number (log 32), hold from reset until INIT writes them:
the spec states none and asks for parameters on which no proof may depend (R22, R221; DESIGN CHOICE, log 8). -/

opaque Config.unsetClkHz : Nat → U32
opaque Config.unsetClkSrc : Nat → ClkSrc
opaque Config.unsetDivEn : Nat → Bit
opaque Config.unsetDiv : Nat → DivCode
opaque Config.unsetEnhMode : Nat → EnhMode
opaque Config.unsetStdMode : Nat → StdMode
opaque Config.unsetOutEn : Nat → Bit
opaque Config.unsetPwmEn : Nat → Bit
opaque Config.unsetStartPol : Nat → Bit
opaque Config.unsetMaxCnt : Nat → U32
opaque Config.unsetCmp : Nat → U32
opaque Config.unsetHCnt : Nat → U32
opaque Config.unsetLCnt : Nat → U32

end Sys2Proof
end

