-- ==== Sys2Proof/Syntax.lean ====
section
/-! DEFINITION. The instructions: one constructor per row of spec/opcode_table.json. -/

namespace Sys2Proof

/-- The three commands (30_encoding.md R60) and the nine rows of the Clock Divider Selector (40_divider_selector.md
R81, R82; they are data rows, no commands: log 5). -/
inductive Instr where
  /-- `INIT` (R100). -/
  | init
  /-- `SETW channel, period, pulse, inv` (R120). -/
  | setw (channel period pulse : U32) (inv : Bool)
  /-- `GETF channel` (R160). -/
  | getf (channel : U32)
  /-- Row `DIVSEL.1`. -/
  | divsel1
  /-- Row `DIVSEL.2`. -/
  | divsel2
  /-- Row `DIVSEL.4`. -/
  | divsel4
  /-- Row `DIVSEL.8`. -/
  | divsel8
  /-- Row `DIVSEL.16`. -/
  | divsel16
  /-- Row `DIVSEL.32`. -/
  | divsel32
  /-- Row `DIVSEL.40`. -/
  | divsel40
  /-- Row `DIVSEL.64`. -/
  | divsel64
  /-- Row `DIVSEL.fallback`, with the unrecognized input (R82). -/
  | divselFallback (p : U32)
  deriving DecidableEq, Repr

end Sys2Proof
end

