-- ==== Sys2Proof/WellFormed.lean ====
section
/-! DEFINITION. Which terms of `Instr` stand for an instruction. -/

namespace Sys2Proof

/-- The set {1, 2, 4, 8, 16, 32, 40, 64} of R80. -/
def recognizedSet : List U32 := [1, 2, 4, 8, 16, 32, 40, 64]

/-- The row `DIVSEL.fallback` applies only where none of the other eight matches (R82); every operand of a command is a
whole unsigned field, so any value of it will do (R61). -/
def Instr.wellFormed : Instr → Bool
  | .init => true
  | .setw _ _ _ _ => true
  | .getf _ => true
  | .divsel1 => true
  | .divsel2 => true
  | .divsel4 => true
  | .divsel8 => true
  | .divsel16 => true
  | .divsel32 => true
  | .divsel40 => true
  | .divsel64 => true
  | .divselFallback p => !recognizedSet.contains p

end Sys2Proof
end

