-- ==== Sys2Proof/Decode.lean ====
section
/-! DEFINITION. Decoder and encoder of the words at the host interface (30_encoding.md R61 to R63; the rows `DIVSEL.*`
of the opcode table). The layout is the spec's own transport encoding (D2; log 29). -/

namespace Sys2Proof

/-- Why a 128-bit word is reserved (R63). -/
inductive DecodeError where
  /-- `op` = 11. -/
  | reservedOp
  /-- a non-zero `rsv` field. -/
  | reservedBits
  /-- an INIT word with a non-zero operand field. -/
  | initOperand
  /-- a GETF word with a non-zero `inv`, `period` or `pulse`. -/
  | getfOperand
  deriving DecidableEq, Repr

namespace Command

/-- `op`, bits 127:126. -/
def op (w : BitVec 128) : BitVec 2 := w.extractLsb' 126 2
/-- `rsv`, bits 125:97. -/
def rsv (w : BitVec 128) : BitVec 29 := w.extractLsb' 97 29
/-- `inv`, bit 96. -/
def inv (w : BitVec 128) : Bool := w.getLsbD 96
/-- `channel`, bits 95:64. -/
def channel (w : BitVec 128) : U32 := w.extractLsb' 64 32
/-- `period`, bits 63:32. -/
def period (w : BitVec 128) : U32 := w.extractLsb' 32 32
/-- `pulse`, bits 31:0. -/
def pulse (w : BitVec 128) : U32 := w.extractLsb' 0 32

/-- A word from its fields, most significant first, `rsv` zero (R61). -/
def word (op : BitVec 2) (inv : Bool) (channel period pulse : U32) : BitVec 128 :=
  op ++ (0#29) ++ BitVec.ofBool inv ++ channel ++ period ++ pulse

/-- The decoder of R62; a word that matches no row is reserved (R63). Of several reasons the first in this order is
named (DESIGN CHOICE, log 16). -/
def decode (w : BitVec 128) : Except DecodeError Instr :=
  if op w = 3 then .error .reservedOp
  else if rsv w ≠ 0 then .error .reservedBits
  else if op w = 0 then
    if inv w = false ∧ channel w = 0 ∧ period w = 0 ∧ pulse w = 0 then .ok .init else .error .initOperand
  else if op w = 1 then .ok (.setw (channel w) (period w) (pulse w) (inv w))
  else if inv w = false ∧ period w = 0 ∧ pulse w = 0 then .ok (.getf (channel w)) else .error .getfOperand

end Command

/-- The row of the selector's table that an input matches (R81, R82). -/
def decodePrescaler (p : U32) : Instr :=
  if p = 1 then .divsel1
  else if p = 2 then .divsel2
  else if p = 4 then .divsel4
  else if p = 8 then .divsel8
  else if p = 16 then .divsel16
  else if p = 32 then .divsel32
  else if p = 40 then .divsel40
  else if p = 64 then .divsel64
  else .divselFallback p

/-- The decoder: total on every word. -/
def decode : HostWord → Except DecodeError Instr
  | .cmd w => Command.decode w
  | .psc p => .ok (decodePrescaler p)

/-- The encoder (R61, R62; the rows `DIVSEL.*`). -/
def encode : Instr → HostWord
  | .init => .cmd (Command.word 0 false 0 0 0)
  | .setw channel period pulse inv => .cmd (Command.word 1 inv channel period pulse)
  | .getf channel => .cmd (Command.word 2 false channel 0 0)
  | .divsel1 => .psc 1
  | .divsel2 => .psc 2
  | .divsel4 => .psc 4
  | .divsel8 => .psc 8
  | .divsel16 => .psc 16
  | .divsel32 => .psc 32
  | .divsel40 => .psc 40
  | .divsel64 => .psc 64
  | .divselFallback p => .psc p

/-- A command's line of text (R66; D26); the selector's rows have none, being no commands. -/
def commandText : Instr → Option String
  | .init => some "INIT"
  | .setw channel period pulse inv =>
    some ("SETW  " ++ toString channel.toNat ++ ", " ++ toString period.toNat ++ ", " ++ toString pulse.toNat ++ ", " ++
      (if inv then "1" else "0"))
  | .getf channel => some ("GETF  " ++ toString channel.toNat)
  | .divsel1 => none
  | .divsel2 => none
  | .divsel4 => none
  | .divsel8 => none
  | .divsel16 => none
  | .divsel32 => none
  | .divsel40 => none
  | .divsel64 => none
  | .divselFallback _ => none

/-- The word that the opcode table numbers `w`: a row of at most 32 bits is an input of the selector, a longer one a
command word; bits above `nbits` are 0 (log 2). -/
def tableWord (nbits w : Nat) : HostWord :=
  if nbits ≤ 32 then .psc (BitVec.ofNat 32 (w % 2 ^ nbits)) else .cmd (BitVec.ofNat 128 (w % 2 ^ nbits))

/-- The instruction that the decoder reads from the word the opcode table numbers `w`. -/
def decodeTableWord (nbits w : Nat) : Option Instr :=
  match decode (tableWord nbits w) with
  | .ok i => some i
  | .error _ => none

end Sys2Proof
end

