-- ==== Sys2Proof/Machine/State.lean ====
section
/-! DEFINITION. The state of a PWMENC instance (10_state.md), its reset value (R22, R220), and the reasons a step can stop. -/

namespace Sys2Proof.Machine

/-- `PHASE` (R14). -/
inductive Phase where
  | uninit
  | running
  deriving DecidableEq, Repr

/-- The Enhanced register block, fields x[0] to x[8] in order (R17). -/
structure EnhRegs where
  clksrc   : ClkSrc
  diven    : Bit
  div      : DivCode
  mode     : EnhMode
  outen    : Bit
  startpol : Bit
  maxcnt   : U32
  cmp      : U32
  en       : Bit
  deriving DecidableEq, Repr

/-- The Standard register block, fields x[0] to x[7] in order (R18). -/
structure StdRegs where
  clksrc : ClkSrc
  diven  : Bit
  div    : DivCode
  mode   : StdMode
  pwmen  : Bit
  hcnt   : U32
  lcnt   : U32
  en     : Bit
  deriving DecidableEq, Repr

/-- The instance's register block. An instance has exactly one of the two, chosen by `IS_ENHANCED` (R2): the
constructor is that flag (log 7). -/
inductive Block where
  | enh (r : EnhRegs)
  | std (r : StdRegs)
  deriving DecidableEq, Repr

/-- The write of one field of the Enhanced block. -/
inductive EnhWrite where
  | clksrc (v : ClkSrc)
  | diven (v : Bit)
  | div (v : DivCode)
  | mode (v : EnhMode)
  | outen (v : Bit)
  | startpol (v : Bit)
  | maxcnt (v : U32)
  | cmp (v : U32)
  | en (v : Bit)
  deriving DecidableEq, Repr

/-- The write of one field of the Standard block. -/
inductive StdWrite where
  | clksrc (v : ClkSrc)
  | diven (v : Bit)
  | div (v : DivCode)
  | mode (v : StdMode)
  | pwmen (v : Bit)
  | hcnt (v : U32)
  | lcnt (v : U32)
  | en (v : Bit)
  deriving DecidableEq, Repr

/-- A write group (R43): field writes made together, listed in the order in which the rule lists the fields (D11; log 13). -/
inductive WriteGroup where
  | enh (ws : List EnhWrite)
  | std (ws : List StdWrite)
  deriving DecidableEq, Repr

/-- The events of `TRACE` (R20). -/
inductive Event where
  /-- `CLKGATE(CLOCK_ID)`. -/
  | clkgate (clockId : Nat)
  /-- `PINMUX(r)`. -/
  | pinmux (r : PinmuxAnswer)
  /-- `WG` with its field writes. -/
  | wg (g : WriteGroup)
  deriving DecidableEq, Repr

/-- `status` of a response (R65). -/
inductive Status where
  | ok
  | invalidChannel
  | dependencyFailure
  deriving DecidableEq, Repr

/-- The response to a command (R65). -/
structure Response where
  status : Status
  value  : U64
  deriving DecidableEq, Repr

/-- What the last served request gave back (log 4): a command's response, or the selector's result (R80). -/
inductive Answer where
  | rsp (r : Response)
  | code (c : DivCode)
  deriving DecidableEq, Repr

/-- What the outside puts to the instance, one at a time (log 1, log 14). -/
inductive HostInput where
  /-- a command, or an input for the selector, begun after the previous response (R224). -/
  | request (w : HostWord)
  /-- two commands that overlap in time on this instance (R48, R230). -/
  | overlap (first second : BitVec 128)
  /-- another component writes the register block (R19, R230). -/
  | foreignWrite
  deriving DecidableEq, Repr

/-- The state. `cfg` and the constructor of `block` are the configuration, which no step changes (R10; logs 6, 7).
`ident`, `inbox`, `pinmux`, `draws` and `answer` are the model's own (logs 1, 3, 4, 32). -/
structure State where
  /-- which instance of the platform this is (R202); no step changes it and no result is computed from it. -/
  ident  : Nat
  /-- the configuration bound at reset (R10). -/
  cfg    : InstanceConfig
  /-- `PHASE` (R14). -/
  phase  : Phase
  /-- `CLK_HZ` (R15). -/
  clkHz  : U32
  /-- the timer register block (R17, R18). -/
  block  : Block
  /-- `TRACE`, oldest event first (R20). -/
  trace  : List Event
  /-- what the outside has put to the instance and the instance has not served, oldest first. -/
  inbox  : List HostInput
  /-- the answers of the next pin-mux calls, as far as the state fixes them. -/
  pinmux : List PinmuxAnswer
  /-- how many pin-mux answers have been drawn. -/
  draws  : Nat
  /-- what the last served request gave back; none before the first. -/
  answer : Option Answer
  deriving DecidableEq, Repr

/-- PWMENC has no fault: its errors are responses (R190, R197), and no access can fail (R190). -/
inductive Fault where
  deriving DecidableEq, Repr

/-- Why a step has no next state: the refused situations of R196. All are safe: the spec gives them no meaning. -/
inductive Refusal where
  /-- An instruction without a meaning: raised only by an arm of `exec`. Safe. -/
  | notModelled (mnemonic : String)
  /-- R196 a: a reserved command word (R63). Raised by the fetch. Safe. -/
  | reservedWord (e : DecodeError)
  /-- R196 b: INIT in `RUNNING` (R101). Raised by INIT. Safe. -/
  | initWhileRunning
  /-- R196 c: SETW in `UNINIT` (R121). Raised by SETW. Safe. -/
  | setwBeforeInit
  /-- R196 c: GETF in `UNINIT` (R162). Raised by GETF. Safe. -/
  | getfBeforeInit
  /-- R196 d: GETF with a valid channel and `PRESCALER` = 0 (R164). Raised by GETF. Safe. -/
  | zeroPrescaler
  /-- R196 e: two commands overlapping in time (R48). Raised by the fetch. Safe. -/
  | overlappingCommands
  /-- R196 e by R230: another component writes the register block. Raised by the fetch. Safe. -/
  | foreignRegisterWrite
  deriving DecidableEq, Repr

/-- What the fetch finds (log 1). -/
inductive Fetched where
  /-- nothing is asked (R224). -/
  | idle
  /-- a request for `i`; `s` is the state with the request taken from the interface. -/
  | run (i : Instr) (s : State)
  /-- a situation the spec refuses (R196 a, e). -/
  | refuse (r : Refusal)
  deriving DecidableEq, Repr

/-- The Enhanced block of instance `k` at reset: `EN` = 0, the other fields at their uninterpreted values (R22, R221; log 8). -/
def EnhRegs.reset (k : Nat) : EnhRegs :=
  { clksrc := Config.unsetClkSrc k, diven := Config.unsetDivEn k, div := Config.unsetDiv k, mode := Config.unsetEnhMode k,
    outen := Config.unsetOutEn k, startpol := Config.unsetStartPol k, maxcnt := Config.unsetMaxCnt k,
    cmp := Config.unsetCmp k, en := 0 }

/-- The Standard block of instance `k` at reset (R22, R221; log 8). -/
def StdRegs.reset (k : Nat) : StdRegs :=
  { clksrc := Config.unsetClkSrc k, diven := Config.unsetDivEn k, div := Config.unsetDiv k, mode := Config.unsetStdMode k,
    pwmen := Config.unsetPwmEn k, hcnt := Config.unsetHCnt k, lcnt := Config.unsetLCnt k, en := 0 }

/-- The reset state of instance `k` with the given configuration (R22, R220). -/
def State.resetWith (k : Nat) (enhanced : Bool) (cfg : InstanceConfig) : State :=
  { ident := k, cfg := cfg, phase := .uninit, clkHz := Config.unsetClkHz k,
    block := if enhanced then .enh (EnhRegs.reset k) else .std (StdRegs.reset k),
    trace := [], inbox := [], pinmux := [], draws := 0, answer := none }

/-- The machine right after reset (R220). -/
def State.reset : State := State.resetWith Config.boundIdent Config.boundEnhanced Config.bound

end Sys2Proof.Machine
end

