-- ==== Sys2Proof/Machine/Ops.lean ====
section
/-! DEFINITION. The named operations over the state: write groups and the commit protocol (20_memory.md R43, R46), the
events and the pin-mux draw (10_state.md R20, 41_initialize.md R103), the response and the errors (30_encoding.md R65,
60_exceptions.md R190 to R198), and the fetch of the next request. -/

namespace Sys2Proof.Machine

/-- `CLK_HZ_CONST` (R6 P6). -/
def clkHzConst : U32 := 40000000

/-- `MAX32` (R6 P12). -/
def max32 : U32 := 0xFFFFFFFF

/-- `START_LOW` (R17; D8, log 17). -/
def startLow : Bit := 0

/-- `START_HIGH` (R17; D8, log 17). -/
def startHigh : Bit := 1

/-- `IS_ENHANCED` (R6 P1): which block the instance has. -/
def State.isEnhanced (s : State) : Bool :=
  match s.block with
  | .enh _ => true
  | .std _ => false

/-- One field write of the Enhanced block. -/
def EnhRegs.write (r : EnhRegs) : EnhWrite → EnhRegs
  | .clksrc v => { r with clksrc := v }
  | .diven v => { r with diven := v }
  | .div v => { r with div := v }
  | .mode v => { r with mode := v }
  | .outen v => { r with outen := v }
  | .startpol v => { r with startpol := v }
  | .maxcnt v => { r with maxcnt := v }
  | .cmp v => { r with cmp := v }
  | .en v => { r with en := v }

/-- One field write of the Standard block. -/
def StdRegs.write (r : StdRegs) : StdWrite → StdRegs
  | .clksrc v => { r with clksrc := v }
  | .diven v => { r with diven := v }
  | .div v => { r with div := v }
  | .mode v => { r with mode := v }
  | .pwmen v => { r with pwmen := v }
  | .hcnt v => { r with hcnt := v }
  | .lcnt v => { r with lcnt := v }
  | .en v => { r with en := v }

/-- The writes of a group, in the listed order (R43; log 13). -/
def EnhRegs.writes (ws : List EnhWrite) (r : EnhRegs) : EnhRegs := ws.foldl EnhRegs.write r

/-- The writes of a group, in the listed order (R43; log 13). -/
def StdRegs.writes (ws : List StdWrite) (r : StdRegs) : StdRegs := ws.foldl StdRegs.write r

/-- The block after a write group. An instance has no fields of the other variant (R2), so a group of those writes
nothing; no rule makes one. -/
def Block.apply (b : Block) (g : WriteGroup) : Block :=
  match b, g with
  | .enh r, .enh ws => .enh (r.writes ws)
  | .std r, .std ws => .std (r.writes ws)
  | .enh r, .std _ => .enh r
  | .std r, .enh _ => .std r

/-- The enable field `EN` (R46). -/
def Block.en : Block → Bit
  | .enh r => r.en
  | .std r => r.en

/-- The group that writes only `EN` (R46). -/
def Block.enGroup (b : Block) (v : Bit) : WriteGroup :=
  match b with
  | .enh _ => .enh [.en v]
  | .std _ => .std [.en v]

/-- `Emit(e)` (R8). -/
def State.emit (s : State) (e : Event) : State := { s with trace := s.trace ++ [e] }

/-- `RegGroup` (R43): the named fields take their values and one `WG` event is appended. -/
def State.regGroup (s : State) (g : WriteGroup) : State := { s with block := s.block.apply g }.emit (.wg g)

/-- `RegGroup` of `EN` alone (R46, R107). -/
def State.setEnable (s : State) (v : Bit) : State := s.regGroup (s.block.enGroup v)

/-- `Commit(V)` (R46): disable, the new values, re-enable. -/
def State.commit (s : State) (g : WriteGroup) : State := ((s.setEnable 0).regGroup g).setEnable 1

/-- The pin-mux answer the next INIT gets: the one the state fixes, else a free value of its own for each
instance and each call (log 3). -/
def State.nextPinmux (s : State) : PinmuxAnswer :=
  match s.pinmux with
  | [] => Config.pinmuxAnswer s.ident s.draws
  | a :: _ => a

/-- The draw of a pin-mux answer (R100 line 2) used up. -/
def State.drawn (s : State) : State := { s with pinmux := s.pinmux.tail, draws := s.draws + 1 }

/-- The errors (R190), with what the response carries. -/
inductive CmdError where
  /-- R191: carries nothing. -/
  | invalidChannel
  /-- R192: carries the collaborator's error. -/
  | dependencyFailure (e : DepErr)
  deriving DecidableEq, Repr

/-- The response of an error (R65, R191, R192): `DEP_ERR` is carried unchanged, in 64 bits. -/
def CmdError.response : CmdError → Response
  | .invalidChannel => ⟨.invalidChannel, 0⟩
  | .dependencyFailure e => ⟨.dependencyFailure, e.val⟩

/-- The end of a command (R65: exactly one response). -/
def State.respond (s : State) (r : Response) : State := { s with answer := some (.rsp r) }

/-- `return unit` (R8): status OK, value zero (R65). -/
def State.returnUnit (s : State) : State := s.respond ⟨.ok, 0⟩

/-- `return v` (R8). -/
def State.returnValue (s : State) (v : U64) : State := s.respond ⟨.ok, v⟩

/-- `raise` (R8), the error entry (R197): it saves nothing, changes no mode and writes nothing; the response carries
the error. There is nothing to return from (R198). -/
def State.raise (s : State) (e : CmdError) : State := s.respond e.response

/-- The result of the selector leaves through the answer (log 4, log 5). -/
def State.returnCode (s : State) (c : DivCode) : State := { s with answer := some (.code c) }

/-- The two status bits (R65; D3). -/
def Status.bits : Status → BitVec 2
  | .ok => 0
  | .invalidChannel => 1
  | .dependencyFailure => 2

/-- The response word `RSP[65:0]` (R65). -/
def Response.word (r : Response) : BitVec 66 := r.status.bits ++ r.value

/-- What stands next at the interface (R223, R224; logs 1, 14). -/
def fetch (s : State) : Fetched :=
  match s.inbox with
  | [] => .idle
  | .request w :: rest =>
    match decode w with
    | .ok i => .run i { s with inbox := rest }
    | .error e => .refuse (.reservedWord e)
  | .overlap _ _ :: _ => .refuse .overlappingCommands
  | .foreignWrite :: _ => .refuse .foreignRegisterWrite

/-- `s` with the word the opcode table numbers `w` standing next at the interface (log 2). -/
def State.withRequest (s : State) (nbits w : Nat) : State :=
  { s with inbox := .request (tableWord nbits w) :: s.inbox }

end Sys2Proof.Machine
end

