-- ==== Sys2Proof/Machine/Divider.lean ====
section
/-! DEFINITION. The Clock Divider Selector (40_divider_selector.md R80 to R85) and the meanings of its table rows. -/

namespace Sys2Proof.Machine

/-- `DIVSEL` (R81, R82) for any assignment of codes to the recognized prescalers. -/
def divselWith {α : Type} (code : Recognized → α) (p : U32) : α :=
  if p = 1 then code .p1
  else if p = 2 then code .p2
  else if p = 4 then code .p4
  else if p = 8 then code .p8
  else if p = 16 then code .p16
  else if p = 32 then code .p32
  else if p = 40 then code .p40
  else if p = 64 then code .p64
  else code .p1

/-- `DIVSEL` with the instance's codes (R81). -/
def divsel (p : U32) : DivCode := divselWith Config.divCode p

/-- An evaluation of the selector at input `p`: pure, it writes no state of the spec (R83); the result goes to the
answer (log 5). -/
def evalDivsel (p : U32) (s : State) : Host.Outcome State Fault Refusal := .next (s.returnCode (divsel p))

/-- Row `DIVSEL.1` (R81). -/
def execDivsel1 (s : State) : Host.Outcome State Fault Refusal := evalDivsel 1 s
/-- Row `DIVSEL.2` (R81). -/
def execDivsel2 (s : State) : Host.Outcome State Fault Refusal := evalDivsel 2 s
/-- Row `DIVSEL.4` (R81). -/
def execDivsel4 (s : State) : Host.Outcome State Fault Refusal := evalDivsel 4 s
/-- Row `DIVSEL.8` (R81). -/
def execDivsel8 (s : State) : Host.Outcome State Fault Refusal := evalDivsel 8 s
/-- Row `DIVSEL.16` (R81). -/
def execDivsel16 (s : State) : Host.Outcome State Fault Refusal := evalDivsel 16 s
/-- Row `DIVSEL.32` (R81). -/
def execDivsel32 (s : State) : Host.Outcome State Fault Refusal := evalDivsel 32 s
/-- Row `DIVSEL.40` (R81). -/
def execDivsel40 (s : State) : Host.Outcome State Fault Refusal := evalDivsel 40 s
/-- Row `DIVSEL.64` (R81). -/
def execDivsel64 (s : State) : Host.Outcome State Fault Refusal := evalDivsel 64 s
/-- Row `DIVSEL.fallback` (R82). On a term that is not well formed it is still `DIVSEL` at that input (log 27). -/
def execDivselFallback (p : U32) (s : State) : Host.Outcome State Fault Refusal := evalDivsel p s

end Sys2Proof.Machine
end

