-- ==== Sys2Proof/Machine/Init.lean ====
section
/-! DEFINITION. INIT (41_initialize.md R100 to R110). -/

namespace Sys2Proof.Machine

/-- The Enhanced baseline group (R105). -/
def enhBaseline (prescaler : U32) : List EnhWrite :=
  [.clksrc .internal40M, .diven 1, .div (divsel prescaler), .mode .pwmManual, .outen 1, .startpol startLow,
    .maxcnt max32, .cmp 0]

/-- The Standard baseline group (R106). -/
def stdBaseline (prescaler : U32) : List StdWrite :=
  [.clksrc .internal40M, .diven 1, .div (divsel prescaler), .mode .userDefined, .pwmen 1, .hcnt 0, .lcnt max32]

/-- The baseline group of the instance's variant (R100 line 6). -/
def State.baseline (s : State) : WriteGroup :=
  match s.block with
  | .enh _ => .enh (enhBaseline s.cfg.prescaler)
  | .std _ => .std (stdBaseline s.cfg.prescaler)

/-- Lines 1 and 2 of R100: the clock-gating call (R102) and the pin-mux call with its drawn answer (R103). -/
def State.callCollaborators (s : State) : State :=
  ((s.emit (.clkgate s.cfg.clockId)).emit (.pinmux s.nextPinmux)).drawn

/-- Lines 4 to 8 of R100: the clock (R104), the baseline group (R105, R106), the enable group and the phase (R107). -/
def State.bringUp (s : State) : State :=
  { (({ s with clkHz := clkHzConst }).regGroup s.baseline).setEnable 1 with phase := .running }

/-- Lines 1 to 9 of R100 (D12; log 24). -/
def State.runInit (s : State) : State :=
  match s.nextPinmux with
  | .ok => s.callCollaborators.bringUp.returnUnit
  | .fail e => s.callCollaborators.raise (.dependencyFailure e)

/-- INIT (R100); refused in `RUNNING` (R101). -/
def execInit (s : State) : Host.Outcome State Fault Refusal :=
  match s.phase with
  | .running => .refused .initWhileRunning
  | .uninit => .next s.runInit

end Sys2Proof.Machine
end

