-- ==== Sys2Proof/Machine/Operands.lean ====
section
/-! DEFINITION. What a command reads of its operands (30_encoding.md R60, R61: every operand is the field's bits as an
unsigned number) and the register fields by number (00_scope.md R8). -/

namespace Sys2Proof.Machine

/-- `channel >= CHANNELS`, unsigned (R191). -/
def State.channelInvalid (s : State) (channel : U32) : Bool := s.cfg.channels.ule channel

/-- `zext_64` (R7). -/
def zext64 (v : U32) : U64 := v.setWidth 64

/-- The duty-cycle classes (R122). -/
inductive DutyClass where
  | zero
  | full
  | general
  deriving DecidableEq, Repr

/-- `Classify` (R122): the first match wins. -/
def classify (period pulse : U32) : DutyClass :=
  if period = 0 ∨ pulse = 0 then .zero
  else if period = pulse then .full
  else .general

/-- The value of a register field (R17, R18). -/
inductive FieldValue where
  | clkSrc (v : ClkSrc)
  | bit (v : Bit)
  | divCode (v : DivCode)
  | enhMode (v : EnhMode)
  | stdMode (v : StdMode)
  | count (v : U32)
  deriving DecidableEq, Repr

/-- `x[i]` of the Enhanced block (R8, R17); none for a number that no field has. -/
def EnhRegs.x (r : EnhRegs) : Nat → Option FieldValue
  | 0 => some (.clkSrc r.clksrc)
  | 1 => some (.bit r.diven)
  | 2 => some (.divCode r.div)
  | 3 => some (.enhMode r.mode)
  | 4 => some (.bit r.outen)
  | 5 => some (.bit r.startpol)
  | 6 => some (.count r.maxcnt)
  | 7 => some (.count r.cmp)
  | 8 => some (.bit r.en)
  | _ => none

/-- `x[i]` of the Standard block (R8, R18). -/
def StdRegs.x (r : StdRegs) : Nat → Option FieldValue
  | 0 => some (.clkSrc r.clksrc)
  | 1 => some (.bit r.diven)
  | 2 => some (.divCode r.div)
  | 3 => some (.stdMode r.mode)
  | 4 => some (.bit r.pwmen)
  | 5 => some (.count r.hcnt)
  | 6 => some (.count r.lcnt)
  | 7 => some (.bit r.en)
  | _ => none

/-- `x[i]` of the instance's block (R8). A read has no side effect (R44; log 22). -/
def Block.x : Block → Nat → Option FieldValue
  | .enh r => r.x
  | .std r => r.x

/-- The number of the field a write names (R17). -/
def EnhWrite.number : EnhWrite → Nat
  | .clksrc _ => 0
  | .diven _ => 1
  | .div _ => 2
  | .mode _ => 3
  | .outen _ => 4
  | .startpol _ => 5
  | .maxcnt _ => 6
  | .cmp _ => 7
  | .en _ => 8

/-- The value a write gives its field. -/
def EnhWrite.value : EnhWrite → FieldValue
  | .clksrc v => .clkSrc v
  | .diven v => .bit v
  | .div v => .divCode v
  | .mode v => .enhMode v
  | .outen v => .bit v
  | .startpol v => .bit v
  | .maxcnt v => .count v
  | .cmp v => .count v
  | .en v => .bit v

/-- The number of the field a write names (R18). -/
def StdWrite.number : StdWrite → Nat
  | .clksrc _ => 0
  | .diven _ => 1
  | .div _ => 2
  | .mode _ => 3
  | .pwmen _ => 4
  | .hcnt _ => 5
  | .lcnt _ => 6
  | .en _ => 7

/-- The value a write gives its field. -/
def StdWrite.value : StdWrite → FieldValue
  | .clksrc v => .clkSrc v
  | .diven v => .bit v
  | .div v => .divCode v
  | .mode v => .stdMode v
  | .pwmen v => .bit v
  | .hcnt v => .count v
  | .lcnt v => .count v
  | .en v => .bit v

/-- The fields a group names, with the values it gives them. -/
def WriteGroup.pairs : WriteGroup → List (Nat × FieldValue)
  | .enh ws => ws.map fun w => (w.number, w.value)
  | .std ws => ws.map fun w => (w.number, w.value)

/-- The fields a group names. -/
def WriteGroup.numbers : WriteGroup → List Nat
  | .enh ws => ws.map EnhWrite.number
  | .std ws => ws.map StdWrite.number

end Sys2Proof.Machine
end

