-- ==== Sys2Proof/Machine/Query.lean ====
section
/-! DEFINITION. GETF (43_frequency_query.md R160 to R165). -/

namespace Sys2Proof.Machine

/-- Ticks per second (R161): the truncated quotient of the 64-bit extensions; the divisor is the configured prescaler
(D28, log 23). -/
def State.ticksPerSecond (s : State) : U64 := zext64 s.clkHz / zext64 s.cfg.prescaler

/-- GETF (R160): refused in `UNINIT` (R162), InvalidChannel (R163), refused at `PRESCALER` = 0 (R164). -/
def execGetf (channel : U32) (s : State) : Host.Outcome State Fault Refusal :=
  match s.phase with
  | .uninit => .refused .getfBeforeInit
  | .running =>
    if s.channelInvalid channel then .next (s.raise .invalidChannel)
    else if s.cfg.prescaler = 0 then .refused .zeroPrescaler
    else .next (s.returnValue s.ticksPerSecond)

end Sys2Proof.Machine
end

