-- ==== Sys2Proof/Machine/Flags.lean ====
section
/-! DEFINITION. PWMENC has no flags (10_state.md R13). The only sticky single-bit state is the register field
`ENH.STARTPOL`; this is its update rule. -/

namespace Sys2Proof.Machine

/-- What a SETW writes into `ENH.STARTPOL` (42_set_waveform.md R127): `START_HIGH` when the request is inverted,
nothing when it is not, so the bit keeps its value. -/
def startPolWrites (inv : Bool) : List EnhWrite := if inv then [.startpol startHigh] else []

end Sys2Proof.Machine
end

