-- ==== Sys2Proof/Machine/Waveform.lean ====
section
/-! DEFINITION. SETW (42_set_waveform.md R120 to R141). -/

namespace Sys2Proof.Machine

/-- The Enhanced `ZERO` count values, max-count then compare-count (R124; named constants, 93 U9). -/
def enhZeroMaxcnt : U32 := 0xFFFFFFFE
/-- See `enhZeroMaxcnt`. -/
def enhZeroCmp : U32 := 0xFFFFFFFF

/-- `CountWrites` (R124 to R126). `FULL` writes the compare-count alone (R125; D9, log 18). -/
def countWrites (c : DutyClass) (period pulse : U32) : List EnhWrite :=
  match c with
  | .zero => [.maxcnt enhZeroMaxcnt, .cmp enhZeroCmp]
  | .full => [.cmp 0]
  | .general => [.maxcnt period, .cmp pulse]

/-- `EnhValues` (R123, R128). -/
def enhValues (c : DutyClass) (period pulse : U32) (inv : Bool) : List EnhWrite :=
  startPolWrites inv ++ countWrites c period pulse

/-- The pair (active, inactive) of the Standard variant (R132 to R134; C1, log 26; the difference wraps: D10, log 19). -/
def stdPair (c : DutyClass) (period pulse : U32) : U32 × U32 :=
  match c with
  | .zero => (0, max32)
  | .full => (max32, 0)
  | .general => (pulse, period - pulse)

/-- Which count is high and which is low, by polarity (R131). -/
def assignByPolarity (inv : Bool) (pair : U32 × U32) : U32 × U32 := if inv then (pair.2, pair.1) else pair

/-- `StdValues` (R130). -/
def stdValues (c : DutyClass) (period pulse : U32) (inv : Bool) : List StdWrite :=
  [.hcnt (assignByPolarity inv (stdPair c period pulse)).1, .lcnt (assignByPolarity inv (stdPair c period pulse)).2]

/-- The value group `V` of the instance's variant (R120 line 3). -/
def State.waveformGroup (s : State) (period pulse : U32) (inv : Bool) : WriteGroup :=
  match s.block with
  | .enh _ => .enh (enhValues (classify period pulse) period pulse inv)
  | .std _ => .std (stdValues (classify period pulse) period pulse inv)

/-- Lines 1 to 5 of R120. A valid channel has no further effect (R121 c; D22, log 21). -/
def State.runSetw (s : State) (channel period pulse : U32) (inv : Bool) : State :=
  if s.channelInvalid channel then s.raise .invalidChannel
  else (s.commit (s.waveformGroup period pulse inv)).returnUnit

/-- SETW (R120); refused in `UNINIT` (R121 a). -/
def execSetw (channel period pulse : U32) (inv : Bool) (s : State) : Host.Outcome State Fault Refusal :=
  match s.phase with
  | .uninit => .refused .setwBeforeInit
  | .running => .next (s.runSetw channel period pulse inv)

end Sys2Proof.Machine
end

