-- ==== Sys2Proof/Machine/Dispatch.lean ====
section
/-! DEFINITION. One arm per instruction. -/

namespace Sys2Proof.Machine

def exec (i : Instr) (s : State) : Host.Outcome State Fault Refusal :=
  match i with
  | .init => Sys2Proof.Machine.execInit s
  | .setw channel period pulse inv => Sys2Proof.Machine.execSetw channel period pulse inv s
  | .getf channel => Sys2Proof.Machine.execGetf channel s
  | .divsel1 => Sys2Proof.Machine.execDivsel1 s
  | .divsel2 => Sys2Proof.Machine.execDivsel2 s
  | .divsel4 => Sys2Proof.Machine.execDivsel4 s
  | .divsel8 => Sys2Proof.Machine.execDivsel8 s
  | .divsel16 => Sys2Proof.Machine.execDivsel16 s
  | .divsel32 => Sys2Proof.Machine.execDivsel32 s
  | .divsel40 => Sys2Proof.Machine.execDivsel40 s
  | .divsel64 => Sys2Proof.Machine.execDivsel64 s
  | .divselFallback p => Sys2Proof.Machine.execDivselFallback p s

end Sys2Proof.Machine
end

