-- ==== Sys2Proof/Machine/Step.lean ====
section
/-! DEFINITION. One step: serve the request that stands next at the interface (10_state.md R12: one atomic transition per
command). -/

namespace Sys2Proof.Machine

/-- With nothing asked, nothing happens (R224); a situation the spec refuses has no next state (R196). -/
def step (s : State) : Host.Outcome State Fault Refusal :=
  match fetch s with
  | .idle => .next s
  | .run i s' => exec i s'
  | .refuse r => .refused r

/-- `s` with the word the opcode table numbers `w` standing next at the interface (log 2). -/
def State.withFetchWord (s : State) (nbits w : Nat) : State := s.withRequest nbits w

end Sys2Proof.Machine
end

