-- ==== Sys2Proof/Machine/Layout.lean ====
section
/-! DEFINITION. The register fields as bits at addresses (20_memory.md R41), for the OPEN parameters `ENUM_ENC` and
`REG_LAYOUT` (00_scope.md R6 P9, P10; logs 10, 31). No command's rule depends on it (R40). -/

namespace Sys2Proof.Machine

/-- How many bits a field with this value has (R17, R18). -/
def FieldValue.width : FieldValue → Nat
  | .clkSrc _ => Config.clkSrcW
  | .bit _ => 1
  | .divCode _ => Config.divCodeW
  | .enhMode _ => Config.enhModeW
  | .stdMode _ => Config.stdModeW
  | .count _ => 32

/-- The bits of a field with this value. -/
def FieldValue.image : (v : FieldValue) → BitVec v.width
  | .clkSrc v => Config.clkSrcCode v
  | .bit v => v
  | .divCode v => v
  | .enhMode v => Config.enhModeCode v
  | .stdMode v => Config.stdModeCode v
  | .count v => v

/-- Where field `x[n]` of the instance's block lies (R6 P10). -/
def Block.place (b : Block) (n : Nat) : FieldPlace :=
  match b with
  | .enh _ => Config.regLayout.enh n
  | .std _ => Config.regLayout.std n

/-- The bits of one field at their place: the address of its register, the position there of the field's lowest bit, and
the field's bits. The other bits of that register are not part of it (R41; log 31). -/
structure FieldAccess where
  address : Nat
  bit     : Nat
  width   : Nat
  image   : BitVec width
  deriving DecidableEq, Repr

/-- Field `x[n]` with value `v`, as bits at `BASE + offset` (R41). The address is the sum of two natural numbers, of no
bounded width and without a wrap (DESIGN CHOICE, log 34). -/
def State.access (s : State) (n : Nat) (v : FieldValue) : FieldAccess :=
  { address := s.cfg.base + (s.block.place n).offset, bit := (s.block.place n).bit, width := v.width, image := v.image }

/-- The field writes of a group, as bits at addresses (R41), in the order in which the group lists them (log 13). -/
def State.groupAccesses (s : State) (g : WriteGroup) : List FieldAccess := g.pairs.map fun p => s.access p.1 p.2

/-- What stands at the place of field `x[n]`; none for a number that no field has. -/
def State.fieldAccess (s : State) (n : Nat) : Option FieldAccess := (s.block.x n).map (s.access n)

end Sys2Proof.Machine
end

