-- ==== Sys2Proof/Machine/Platform.lean ====
section
/-! DEFINITION. Several instances, one per timer (60_exceptions.md R202): each with a state of its own, no state
shared. The OPEN parameters P7 to P11 of R6 are the same for all instances (DESIGN CHOICE, log 33). -/

namespace Sys2Proof.Machine

/-- The instances of a platform, each at its place in the list (R202). -/
abbrev Platform := List State

/-- The platform at reset: an instance for each variant and configuration, numbered by its place (R202, R220; log 32). -/
def Platform.reset (cs : List (Bool × InstanceConfig)) : Platform := cs.mapIdx fun k c => State.resetWith k c.1 c.2

/-- No two instances have the same number, so no two of them draw the same free value (log 32). -/
def Platform.Distinct (p : Platform) : Prop := (p.map State.ident).Nodup

/-- One step of the instance at place `k`; none where no instance is (R202). -/
def Platform.stepAt (p : Platform) (k : Nat) : Option (Host.Outcome Platform Fault Refusal) :=
  match p[k]? with
  | none => none
  | some s =>
    match step s with
    | .next t => some (.next (p.set k t))
    | .fault r => some (.fault r)
    | .refused r => some (.refused r)

end Sys2Proof.Machine
end

