-- ==== Sys2Proof/Machine/Readback.lean ====
section
/-! DEFINITION. The decode functions (44_decode.md R170 to R175): pure inverses of the encoders on their images, the
spec's own derivation (D23), used by no command. -/

namespace Sys2Proof.Machine

/-- The prescaler a member of the recognized set stands for (R80). -/
def prescalerOf : Recognized → U32
  | .p1 => 1
  | .p2 => 2
  | .p4 => 4
  | .p8 => 8
  | .p16 => 16
  | .p32 => 32
  | .p40 => 40
  | .p64 => 64

/-- `DIVDEC` (R170) for any assignment of codes. -/
def divdecWith {α : Type} [DecidableEq α] (code : Recognized → α) (c : α) : Option U32 :=
  if c = code .p1 then some 1
  else if c = code .p2 then some 2
  else if c = code .p4 then some 4
  else if c = code .p8 then some 8
  else if c = code .p16 then some 16
  else if c = code .p32 then some 32
  else if c = code .p40 then some 40
  else if c = code .p64 then some 64
  else none

/-- `DIVDEC` with the instance's codes (R170). -/
def divdec (c : DivCode) : Option U32 := divdecWith Config.divCode c

/-- What a register image stands for (R171, R173). -/
inductive Duty where
  | zero
  | full
  | general (period pulse : U32)
  deriving DecidableEq, Repr

/-- The class of a decoded image. -/
def Duty.dutyClass : Duty → DutyClass
  | .zero => .zero
  | .full => .full
  | .general _ _ => .general

/-- The decoding of an (active, inactive) pair (R171, after its first line). -/
def pairdec (a i : U32) : Option Duty :=
  if a = 0 ∧ i = max32 then some .zero
  else if a = max32 ∧ i = 0 then some .full
  else if a ≠ 0 ∧ i ≠ 0 ∧ a + i ≠ 0 then some (.general (a + i) a)
  else none

/-- `STDDEC` (R171). -/
def stddec (h l : U32) (inv : Bool) : Option Duty := if inv then pairdec l h else pairdec h l

/-- `ENHDEC` (R173). -/
def enhdec (m c : U32) : Option Duty :=
  if c = 0 then some .full
  else if m = enhZeroMaxcnt ∧ c = enhZeroCmp then some .zero
  else if m ≠ 0 ∧ m ≠ c then some (.general m c)
  else none

/-- The decoding of `ENH.STARTPOL` (R174): whether an inverted SETW has been served since INIT. -/
def startpoldec (b : Bit) : Bool := b == startHigh

/-- The `DIV` field of the instance's block. -/
def Block.div : Block → DivCode
  | .enh r => r.div
  | .std r => r.div

/-- The tick rate the timer is programmed for (R200): 40,000,000 divided by the prescaler that the programmed divider
code stands for; none where the code stands for no prescaler (93 U7). -/
def State.programmedRate (s : State) : Option U64 :=
  match divdec s.block.div with
  | some p => some (zext64 clkHzConst / zext64 p)
  | none => none

end Sys2Proof.Machine
end

