-- ==== Sys2Proof/Safety.lean ====
section
/-! DEFINITION. What counts as a sound state and a sound run of PWMENC, in the terms the statements use. -/

namespace Sys2Proof.Machine

/-- The block after one event: only a write group changes it (10_state.md R20, 20_memory.md R43). -/
def Event.replay (b : Block) : Event → Block
  | .clkgate _ => b
  | .pinmux _ => b
  | .wg g => b.apply g

/-- The block after a history of events. -/
def replay (b : Block) (tr : List Event) : Block := tr.foldl Event.replay b

/-- Whether a group writes nothing but `EN` (R46 groups 1 and 3). -/
def WriteGroup.onlyEnable : WriteGroup → Bool
  | .enh ws => ws.all fun w => w.number == 8
  | .std ws => ws.all fun w => w.number == 7

/-- The event may happen to a block `b`: a group that writes anything besides `EN` meets a disabled timer (R46: "an
in-flight count never mixes old and new thresholds"). -/
def Event.guardedAt (b : Block) : Event → Prop
  | .clkgate _ => True
  | .pinmux _ => True
  | .wg g => g.onlyEnable = true ∨ b.en = 0

/-- Every event of a history may happen where it does. -/
def guarded (b : Block) : List Event → Prop
  | [] => True
  | e :: tr => e.guardedAt b ∧ guarded (e.replay b) tr

/-- An event that is a write group. -/
def Event.isGroup : Event → Bool
  | .clkgate _ => false
  | .pinmux _ => false
  | .wg _ => true

/-- An event that writes `START_HIGH` into `ENH.STARTPOL` (R127). -/
def Event.setsStartHigh : Event → Bool
  | .clkgate _ => false
  | .pinmux _ => false
  | .wg (.std _) => false
  | .wg (.enh ws) => ws.contains (.startpol startHigh)

/-- The timer is disabled until INIT succeeds and enabled between commands from then on (R22, R107, R108, R136, R223). -/
def State.EnabledByPhase (s : State) : Prop :=
  (s.phase = .uninit → s.block.en = 0) ∧ (s.phase = .running → s.block.en = 1)

/-- From a successful INIT on, the clock and the configuration fields hold what INIT wrote (R104 to R107, R123, R130). -/
def State.RunningConfigured (s : State) : Prop :=
  s.phase = .running →
    s.clkHz = 40000000 ∧
    match s.block with
    | .enh r => r.clksrc = .internal40M ∧ r.diven = 1 ∧ r.div = divsel s.cfg.prescaler ∧ r.mode = .pwmManual ∧ r.outen = 1
    | .std r => r.clksrc = .internal40M ∧ r.diven = 1 ∧ r.div = divsel s.cfg.prescaler ∧ r.mode = .userDefined ∧ r.pwmen = 1

/-- From a successful INIT on, the count registers hold an image that decodes, under either polarity (R171, R173). -/
def State.CountsDecode (s : State) : Prop :=
  s.phase = .running →
    match s.block with
    | .enh r => (enhdec r.maxcnt r.cmp).isSome = true
    | .std r => (stddec r.hcnt r.lcnt false).isSome = true ∧ (stddec r.hcnt r.lcnt true).isSome = true

/-- The registers are what the recorded groups make of the block `b0`, and every one of them met the timer as the
commit protocol demands (R16, R43, R46). -/
def State.FollowsTrace (b0 : Block) (s : State) : Prop :=
  s.block = replay b0 s.trace ∧ guarded b0 s.trace

/-- `ENH.STARTPOL` tells whether an inverted SETW has been served since INIT (R174); before INIT no group is recorded. -/
def State.StartPolRecorded (s : State) : Prop :=
  (s.phase = .uninit → s.trace.all (fun e => !e.isGroup) = true) ∧
  (s.phase = .running → ∀ r, s.block = .enh r → startpoldec r.startpol = s.trace.any Event.setsStartHigh)

end Sys2Proof.Machine
end

