-- ==== Sys2Proof/Certificates/Slice0/Obligations.lean ====
section
/-! DEFINITION. Statements about PWMENC for the provers. `x.toNat < y.toNat` is the unsigned comparison of R7.
The fields `answer`, `pinmux` and `draws` that next states show are the model's own (logs 4 and 3). -/

open Sys2Proof Sys2Proof.Machine

/-! ### Encoding -/

/-- Decoding the word of a well-formed instruction gives it back (30_encoding.md, Command word and Opcode map; the rows
`DIVSEL.*`). The layout is the spec's own (decision D2; log 29). -/
def Obligations.DecodeOfEncode : Prop :=
  ∀ i : Instr, i.wellFormed = true → decode (encode i) = .ok i

/-- A word that decodes is the word of its instruction, which is well formed: every word has at most one meaning and no
bit of it is dropped (30_encoding.md, Command word; decision D2). -/
def Obligations.EncodeOfDecode : Prop :=
  ∀ (w : HostWord) (i : Instr), decode w = .ok i → i.wellFormed = true ∧ encode i = w

/-- Which 128-bit words are which command, by the match and mask columns of the opcode map, and that all the others are
reserved (30_encoding.md, Opcode map and Reserved encodings; decisions D2, D21). -/
def Obligations.CommandRowsByMask : Prop :=
  ∀ w : BitVec 128,
    (decode (.cmd w) = .ok .init ↔ w &&& 0xFFFFFFFFFFFFFFFFFFFFFFFFFFFFFFFF = 0) ∧
    ((∃ c p u v, decode (.cmd w) = .ok (.setw c p u v)) ↔
      w &&& 0xFFFFFFFE000000000000000000000000 = 0x40000000000000000000000000000000) ∧
    ((∃ c, decode (.cmd w) = .ok (.getf c)) ↔
      w &&& 0xFFFFFFFF00000000FFFFFFFFFFFFFFFF = 0x80000000000000000000000000000000) ∧
    ((∃ e, decode (.cmd w) = .error e) ↔
      w ≠ 0 ∧ w &&& 0xFFFFFFFE000000000000000000000000 ≠ 0x40000000000000000000000000000000 ∧
      w &&& 0xFFFFFFFF00000000FFFFFFFFFFFFFFFF ≠ 0x80000000000000000000000000000000)

/-- Each operand is its field's bits as an unsigned number (30_encoding.md, Command word; decision D2). -/
def Obligations.OperandsAreFields : Prop :=
  ∀ w : BitVec 128,
    (∀ c p u v, decode (.cmd w) = .ok (.setw c p u v) →
      c.toNat = w.toNat / 2 ^ 64 % 2 ^ 32 ∧ p.toNat = w.toNat / 2 ^ 32 % 2 ^ 32 ∧ u.toNat = w.toNat % 2 ^ 32 ∧
      (v = true ↔ w.toNat / 2 ^ 96 % 2 = 1)) ∧
    (∀ c, decode (.cmd w) = .ok (.getf c) → c.toNat = w.toNat / 2 ^ 64 % 2 ^ 32)

/-- Words of the spec's test vectors W1 to W11 (95_test_vectors.md, section 7) and one input of the selector for each of
two rows. -/
def Obligations.SampleWords : Prop :=
  decode (.ofWords 0x00000000 0x00000000 0x00000000 0x00000000) = .ok .init ∧
  decode (.ofWords 0x40000000 0x00000000 0x000003E8 0x000000FA) = .ok (.setw 0 1000 250 false) ∧
  decode (.ofWords 0x40000001 0x00000001 0x000003E8 0x000000FA) = .ok (.setw 1 1000 250 true) ∧
  decode (.ofWords 0x80000000 0x00000003 0x00000000 0x00000000) = .ok (.getf 3) ∧
  decode (.ofWords 0xC0000000 0x00000000 0x00000000 0x00000000) = .error .reservedOp ∧
  decode (.ofWords 0x40000002 0x00000000 0x000003E8 0x000000FA) = .error .reservedBits ∧
  decode (.ofWords 0x00000000 0x00000001 0x00000000 0x00000000) = .error .initOperand ∧
  decode (.ofWords 0x80000001 0x00000000 0x00000000 0x00000000) = .error .getfOperand ∧
  decode (.psc 0x00000028) = .ok .divsel40 ∧
  decode (.psc 0x00000080) = .ok (.divselFallback 128)

/-! ### The step -/

/-- A step runs the decoded request that stands next, with the request taken from the interface; with nothing asked the
state stands still (10_state.md, section 2; 70_reset_and_hazards.md, Boot requirements). The interface is the model's
choice (log 1). -/
def Obligations.StepRunsDecoded : Prop :=
  (∀ (s : State) (w : HostWord) (rest : List HostInput) (i : Instr),
    s.inbox = .request w :: rest → decode w = .ok i → step s = exec i { s with inbox := rest }) ∧
  (∀ s : State, s.inbox = [] → step s = .next s)

/-- Placing a word of the opcode table makes the very next step run that row's instruction on the state it was placed in
(the model's own reading of the table's numbering, log 2). -/
def Obligations.PlacedWordRuns : Prop :=
  ∀ (s : State) (nbits w : Nat) (i : Instr),
    decodeTableWord nbits w = some i → step (s.withFetchWord nbits w) = exec i s

/-- The refused situations, completely, each with its name (60_exceptions.md, section 3; decisions D13, D15, D21, D24,
D25; the inputs of the last two are the model's, log 14). -/
def Obligations.StepRefusals : Prop :=
  ∀ (s : State) (r : Refusal), step s = .refused r ↔
    (∃ w rest e, s.inbox = .request (.cmd w) :: rest ∧ decode (.cmd w) = .error e ∧ r = .reservedWord e) ∨
    (∃ w rest, s.inbox = .request w :: rest ∧ decode w = .ok .init ∧ s.phase = .running ∧ r = .initWhileRunning) ∨
    (∃ w rest c p u v, s.inbox = .request w :: rest ∧ decode w = .ok (.setw c p u v) ∧ s.phase = .uninit ∧
      r = .setwBeforeInit) ∨
    (∃ w rest c, s.inbox = .request w :: rest ∧ decode w = .ok (.getf c) ∧ s.phase = .uninit ∧ r = .getfBeforeInit) ∨
    (∃ w rest c, s.inbox = .request w :: rest ∧ decode w = .ok (.getf c) ∧ s.phase = .running ∧
      c.toNat < s.cfg.channels.toNat ∧ s.cfg.prescaler = 0 ∧ r = .zeroPrescaler) ∨
    (∃ a b rest, s.inbox = .overlap a b :: rest ∧ r = .overlappingCommands) ∨
    (∃ rest, s.inbox = .foreignWrite :: rest ∧ r = .foreignRegisterWrite)

/-! ### The Clock Divider Selector -/

/-- R81, R82: the selector's result for every input: the eight recognized values have their codes, and every other
value has the divide-by-1 code, which nothing tells from that of a genuine 1. -/
def Obligations.DivselTable : Prop :=
  divsel 1 = Config.divCode .p1 ∧ divsel 2 = Config.divCode .p2 ∧ divsel 4 = Config.divCode .p4 ∧
  divsel 8 = Config.divCode .p8 ∧ divsel 16 = Config.divCode .p16 ∧ divsel 32 = Config.divCode .p32 ∧
  divsel 40 = Config.divCode .p40 ∧ divsel 64 = Config.divCode .p64 ∧
  ∀ p : U32, p ∉ [(1 : U32), 2, 4, 8, 16, 32, 40, 64] → divsel p = Config.divCode .p1 ∧ divsel p = divsel 1

/-- Each row of the selector completes with its code and changes nothing but the answer; the fallback gives the
divide-by-1 code, without an error or an event, just as a genuine 1 does (40_divider_selector.md, DIVSEL; that a row can
be asked for and where its result goes is the model's choice, logs 4 and 5). -/
def Obligations.DivselRows : Prop :=
  ∀ s : State,
    exec .divsel1 s = .next { s with answer := some (.code (Config.divCode .p1)) } ∧
    exec .divsel2 s = .next { s with answer := some (.code (Config.divCode .p2)) } ∧
    exec .divsel4 s = .next { s with answer := some (.code (Config.divCode .p4)) } ∧
    exec .divsel8 s = .next { s with answer := some (.code (Config.divCode .p8)) } ∧
    exec .divsel16 s = .next { s with answer := some (.code (Config.divCode .p16)) } ∧
    exec .divsel32 s = .next { s with answer := some (.code (Config.divCode .p32)) } ∧
    exec .divsel40 s = .next { s with answer := some (.code (Config.divCode .p40)) } ∧
    exec .divsel64 s = .next { s with answer := some (.code (Config.divCode .p64)) } ∧
    ∀ p : U32, p ∉ [(1 : U32), 2, 4, 8, 16, 32, 40, 64] →
      exec (.divselFallback p) s = .next { s with answer := some (.code (Config.divCode .p1)) } ∧
      exec (.divselFallback p) s = exec .divsel1 s

/-- The selector is defined for every input, never fails, and depends on its input alone: from any two states the same
input gives the same code, and only the answer and the request taken from the interface change (40_divider_selector.md,
Totality and purity; the interface is the model's choice, logs 1, 4 and 5). -/
def Obligations.DivselPure : Prop :=
  ∀ p : U32, ∃ c : DivCode, divsel p = c ∧ ∀ (s : State) (rest : List HostInput),
    s.inbox = .request (.psc p) :: rest → step s = .next { s with inbox := rest, answer := some (.code c) }

/-- The eight codes are pairwise distinct and the field has at least three bits (40_divider_selector.md, Contract and
Corner cases; 00_scope.md, section 4; decision D5, log 9). -/
def Obligations.DivselInjective : Prop :=
  3 ≤ Config.divCodeW ∧
  ∀ p q : U32, p ∈ recognizedSet → q ∈ recognizedSet → divsel p = divsel q → p = q

/-- The laws of DIVDEC (44_decode.md, DIVDEC; the spec's own derivation, decision D23). -/
def Obligations.DivdecLaws : Prop :=
  (∀ p : U32, p ∈ recognizedSet → divdec (divsel p) = some p) ∧
  (∀ p : U32, p ∉ recognizedSet → divdec (divsel p) = some 1) ∧
  (∀ (c : DivCode) (p : U32), divdec c = some p → p ∈ recognizedSet ∧ divsel p = c) ∧
  (∀ c : DivCode, divdec c = none ↔ ∀ p : U32, divsel p ≠ c)

/-! ### INIT -/

/-- INIT of an Enhanced instance whose pin-mux call succeeds: everything it changes, and the events it appends, in order
(41_initialize.md, INIT; the order of the events and the separate enable group are decisions D12 and D29, log 24; START_LOW
= 0 is D8, log 17). The order of the eight writes inside the first WG event is D11, log 13 (R43 leaves it open), and the
used-up draw is log 3. -/
def Obligations.InitEnhanced : Prop :=
  ∀ (s : State) (r : EnhRegs), s.phase = .uninit → s.block = .enh r → s.nextPinmux = .ok →
    exec .init s = .next { s with
      phase := .running
      clkHz := 40000000
      block := .enh { clksrc := .internal40M, diven := 1, div := divsel s.cfg.prescaler, mode := .pwmManual, outen := 1,
                      startpol := 0, maxcnt := 0xFFFFFFFF, cmp := 0, en := 1 }
      trace := s.trace ++
        [.clkgate s.cfg.clockId, .pinmux .ok,
         .wg (.enh [.clksrc .internal40M, .diven 1, .div (divsel s.cfg.prescaler), .mode .pwmManual, .outen 1,
                    .startpol 0, .maxcnt 0xFFFFFFFF, .cmp 0]),
         .wg (.enh [.en 1])]
      pinmux := s.pinmux.tail
      draws := s.draws + 1
      answer := some (.rsp ⟨.ok, 0⟩) }

/-- INIT of a Standard instance whose pin-mux call succeeds (41_initialize.md, INIT; the order of the
events and the separate enable group are decisions D12 and D29, log 24). The order of the seven writes inside the first
WG event is D11, log 13 (R43 leaves it open), and the used-up draw is log 3. -/
def Obligations.InitStandard : Prop :=
  ∀ (s : State) (r : StdRegs), s.phase = .uninit → s.block = .std r → s.nextPinmux = .ok →
    exec .init s = .next { s with
      phase := .running
      clkHz := 40000000
      block := .std { clksrc := .internal40M, diven := 1, div := divsel s.cfg.prescaler, mode := .userDefined, pwmen := 1,
                      hcnt := 0, lcnt := 0xFFFFFFFF, en := 1 }
      trace := s.trace ++
        [.clkgate s.cfg.clockId, .pinmux .ok,
         .wg (.std [.clksrc .internal40M, .diven 1, .div (divsel s.cfg.prescaler), .mode .userDefined, .pwmen 1,
                    .hcnt 0, .lcnt 0xFFFFFFFF]),
         .wg (.std [.en 1])]
      pinmux := s.pinmux.tail
      draws := s.draws + 1
      answer := some (.rsp ⟨.ok, 0⟩) }

/-- When the pin-mux draw of an INIT is `fail(e)`, INIT completes with DependencyFailure carrying `e` unchanged, having
appended its two events and changed nothing else (the draw itself is used up); and no other instruction, and no other
draw, gives that error (60_exceptions.md, Error causes and codes; 41_initialize.md, INIT). That a failed INIT writes no
register, no CLK_HZ and no PHASE, and that CLKGATE comes before PINMUX, is decision D12 (log 24); the draw is held as log
3 says, and the error as log 11 says. -/
def Obligations.DependencyFailure : Prop :=
  (∀ (s : State) (e : DepErr), s.phase = .uninit → s.nextPinmux = .fail e →
    exec .init s = .next { s with
      trace := s.trace ++ [.clkgate s.cfg.clockId, .pinmux (.fail e)]
      pinmux := s.pinmux.tail
      draws := s.draws + 1
      answer := some (.rsp ⟨.dependencyFailure, e.val⟩) }) ∧
  (∀ (i : Instr) (s t : State) (v : U64), exec i s = .next t → t.answer = some (.rsp ⟨.dependencyFailure, v⟩) →
    i = .init ∧ s.phase = .uninit ∧ ∃ e : DepErr, e.val = v ∧ s.nextPinmux = .fail e)

/-- A failed INIT may be retried: the state is still one that admits INIT, with its registers as they were, and the retry
draws afresh and can succeed (41_initialize.md, Retry: the spec's derivation; decision D12, log 24). -/
def Obligations.InitRetry : Prop :=
  ∀ (s t : State) (v : U64), exec .init s = .next t → t.answer = some (.rsp ⟨.dependencyFailure, v⟩) →
    t.phase = .uninit ∧ t.block = s.block ∧ t.clkHz = s.clkHz ∧
    ∃ u, exec .init t = .next u ∧
      (t.nextPinmux = .ok → u.phase = .running ∧ u.block.en = 1 ∧ u.answer = some (.rsp ⟨.ok, 0⟩))

/-! ### SETW -/

/-- R122: the duty-cycle class of every pair of operands, the first match winning. -/
def Obligations.ClassifyOrder : Prop :=
  ∀ period pulse : U32,
    (classify period pulse = .zero ↔ period = 0 ∨ pulse = 0) ∧
    (classify period pulse = .full ↔ ¬(period = 0 ∨ pulse = 0) ∧ period = pulse) ∧
    (classify period pulse = .general ↔ ¬(period = 0 ∨ pulse = 0) ∧ period ≠ pulse)

/-- SETW in the ZERO class on an Enhanced instance: everything it changes (42_set_waveform.md, Enhanced variant and
Commit; the value of START_HIGH is decision D8, log 17, and the place of its write D11, log 13). -/
def Obligations.SetwEnhancedZero : Prop :=
  ∀ (s : State) (r : EnhRegs) (channel period pulse : U32) (inv : Bool),
    s.phase = .running → s.block = .enh r → channel.toNat < s.cfg.channels.toNat → (period = 0 ∨ pulse = 0) →
    exec (.setw channel period pulse inv) s = .next { s with
      block := .enh { r with startpol := if inv then 1 else r.startpol, maxcnt := 0xFFFFFFFE, cmp := 0xFFFFFFFF, en := 1 }
      trace := s.trace ++
        [.wg (.enh [.en 0]),
         .wg (.enh ((if inv then [.startpol 1] else []) ++ [.maxcnt 0xFFFFFFFE, .cmp 0xFFFFFFFF])),
         .wg (.enh [.en 1])]
      answer := some (.rsp ⟨.ok, 0⟩) }

/-- SETW in the FULL class on an Enhanced instance: the compare-count alone is written, and the start-polarity bit when
inverted (42_set_waveform.md, Enhanced variant; that max-count keeps its value is decision D9, log 18; D8, log 17).
That the start-polarity write stands in the value group, and first inside its WG event, is D11, log 13. -/
def Obligations.SetwEnhancedFull : Prop :=
  ∀ (s : State) (r : EnhRegs) (channel period : U32) (inv : Bool),
    s.phase = .running → s.block = .enh r → channel.toNat < s.cfg.channels.toNat → period ≠ 0 →
    exec (.setw channel period period inv) s = .next { s with
      block := .enh { r with startpol := if inv then 1 else r.startpol, cmp := 0, en := 1 }
      trace := s.trace ++
        [.wg (.enh [.en 0]), .wg (.enh ((if inv then [.startpol 1] else []) ++ [.cmp 0])), .wg (.enh [.en 1])]
      answer := some (.rsp ⟨.ok, 0⟩) }

/-- SETW in the GENERAL class on an Enhanced instance, also where the pulse exceeds the period (42_set_waveform.md,
Enhanced variant; D8, log 17; D11, log 13). -/
def Obligations.SetwEnhancedGeneral : Prop :=
  ∀ (s : State) (r : EnhRegs) (channel period pulse : U32) (inv : Bool),
    s.phase = .running → s.block = .enh r → channel.toNat < s.cfg.channels.toNat →
    period ≠ 0 → pulse ≠ 0 → period ≠ pulse →
    exec (.setw channel period pulse inv) s = .next { s with
      block := .enh { r with startpol := if inv then 1 else r.startpol, maxcnt := period, cmp := pulse, en := 1 }
      trace := s.trace ++
        [.wg (.enh [.en 0]),
         .wg (.enh ((if inv then [.startpol 1] else []) ++ [.maxcnt period, .cmp pulse])),
         .wg (.enh [.en 1])]
      answer := some (.rsp ⟨.ok, 0⟩) }

/-- R124, R126: the count registers that a SETW leaves on an Enhanced instance in the ZERO and in the GENERAL class, in
either polarity. -/
def Obligations.SetwEnhancedCounts : Prop :=
  ∀ (s : State) (r : EnhRegs) (channel period pulse : U32) (inv : Bool),
    s.phase = .running → s.block = .enh r → channel.toNat < s.cfg.channels.toNat →
    ∃ t r', exec (.setw channel period pulse inv) s = .next t ∧ t.block = .enh r' ∧
      (classify period pulse = .zero → r'.maxcnt = 0xFFFFFFFE ∧ r'.cmp = 0xFFFFFFFF) ∧
      (classify period pulse = .general → r'.maxcnt = period ∧ r'.cmp = pulse)

/-- SETW in the ZERO and FULL classes on a Standard instance, in either polarity: everything it changes
(42_set_waveform.md, Standard variant and Commit; the ZERO pair is the spec's resolution of conflict C1, log 26, and the
order inside the WG event is decision D11, log 13). -/
def Obligations.SetwStandardBoundary : Prop :=
  ∀ (s : State) (r : StdRegs) (channel period pulse : U32) (inv : Bool),
    s.phase = .running → s.block = .std r → channel.toNat < s.cfg.channels.toNat →
    ((period = 0 ∨ pulse = 0) →
      exec (.setw channel period pulse inv) s = .next { s with
        block := .std { r with hcnt := if inv then 0xFFFFFFFF else 0, lcnt := if inv then 0 else 0xFFFFFFFF, en := 1 }
        trace := s.trace ++
          [.wg (.std [.en 0]),
           .wg (.std [.hcnt (if inv then 0xFFFFFFFF else 0), .lcnt (if inv then 0 else 0xFFFFFFFF)]),
           .wg (.std [.en 1])]
        answer := some (.rsp ⟨.ok, 0⟩) }) ∧
    (¬(period = 0 ∨ pulse = 0) → period = pulse →
      exec (.setw channel period pulse inv) s = .next { s with
        block := .std { r with hcnt := if inv then 0 else 0xFFFFFFFF, lcnt := if inv then 0xFFFFFFFF else 0, en := 1 }
        trace := s.trace ++
          [.wg (.std [.en 0]),
           .wg (.std [.hcnt (if inv then 0 else 0xFFFFFFFF), .lcnt (if inv then 0xFFFFFFFF else 0)]),
           .wg (.std [.en 1])]
        answer := some (.rsp ⟨.ok, 0⟩) })

/-- SETW in the GENERAL class on a Standard instance, in either polarity (42_set_waveform.md, Standard variant; that the
difference wraps where the pulse exceeds the period is decision D10, log 19; the order of HCNT and LCNT inside the WG event
is D11, log 13). -/
def Obligations.SetwStandardGeneral : Prop :=
  ∀ (s : State) (r : StdRegs) (channel period pulse : U32) (inv : Bool),
    s.phase = .running → s.block = .std r → channel.toNat < s.cfg.channels.toNat →
    period ≠ 0 → pulse ≠ 0 → period ≠ pulse →
    exec (.setw channel period pulse inv) s = .next { s with
      block := .std { r with hcnt := if inv then period - pulse else pulse, lcnt := if inv then pulse else period - pulse,
                             en := 1 }
      trace := s.trace ++
        [.wg (.std [.en 0]),
         .wg (.std [.hcnt (if inv then period - pulse else pulse), .lcnt (if inv then pulse else period - pulse)]),
         .wg (.std [.en 1])]
      answer := some (.rsp ⟨.ok, 0⟩) }

/-- R137: a SETW on a channel that the instance does not have completes with InvalidChannel, value zero, whatever its
other operands are, and changes nothing else; SETW gives no other error, and none on a valid channel. -/
def Obligations.SetwInvalidChannel : Prop :=
  (∀ (s : State) (channel period pulse : U32) (inv : Bool),
    s.phase = .running → s.cfg.channels.toNat ≤ channel.toNat →
    exec (.setw channel period pulse inv) s = .next { s with answer := some (.rsp ⟨.invalidChannel, 0⟩) }) ∧
  (∀ (s t : State) (channel period pulse : U32) (inv : Bool),
    exec (.setw channel period pulse inv) s = .next t → channel.toNat < s.cfg.channels.toNat →
    t.answer = some (.rsp ⟨.ok, 0⟩))

/-- R136: a SETW on a valid channel completes; afterwards the timer is enabled, every field the value group names holds
its new value, every other field is unchanged, the phase is RUNNING, the clock is unchanged, and exactly the three groups
of the commit protocol have been appended, whatever the registers held before. The group stands in its event as the model
lists it (log 13). -/
def Obligations.SetwWritesItsGroup : Prop :=
  ∀ (s : State) (channel period pulse : U32) (inv : Bool),
    s.phase = .running → channel.toNat < s.cfg.channels.toNat →
    ∃ t, exec (.setw channel period pulse inv) s = .next t ∧
      t.block.en = 1 ∧
      (∀ nv ∈ (s.waveformGroup period pulse inv).pairs, t.block.x nv.1 = some nv.2) ∧
      (∀ n, n ∉ (s.waveformGroup period pulse inv).numbers → n ∉ (s.block.enGroup 0).numbers → t.block.x n = s.block.x n) ∧
      t.phase = .running ∧ t.clkHz = s.clkHz ∧
      t.trace = s.trace ++
        [.wg (s.block.enGroup 0), .wg (s.waveformGroup period pulse inv), .wg (s.block.enGroup 1)] ∧
      t.cfg = s.cfg ∧ t.isEnhanced = s.isEnhanced ∧ t.inbox = s.inbox ∧ t.pinmux = s.pinmux ∧ t.draws = s.draws

/-- Two SETW commands that differ only in a valid channel do the same (42_set_waveform.md, Preconditions; decision D22,
log 21). -/
def Obligations.SetwChannelIrrelevant : Prop :=
  ∀ (s : State) (c d period pulse : U32) (inv : Bool),
    c.toNat < s.cfg.channels.toNat → d.toNat < s.cfg.channels.toNat →
    exec (.setw c period pulse inv) s = exec (.setw d period pulse inv) s

/-- For a pulse strictly between zero and the period the two Standard counts sum to exactly the period, without wrapping,
in either polarity (42_set_waveform.md, Laws, item c: the spec's derivation). -/
def Obligations.StandardCountsSum : Prop :=
  ∀ (s : State) (r : StdRegs) (channel period pulse : U32) (inv : Bool),
    s.phase = .running → s.block = .std r → channel.toNat < s.cfg.channels.toNat →
    0 < pulse.toNat → pulse.toNat < period.toNat →
    ∃ t r', exec (.setw channel period pulse inv) s = .next t ∧ t.block = .std r' ∧
      r'.hcnt.toNat + r'.lcnt.toNat = period.toNat

/-- R131: with normal polarity the active count goes to the high-count and the inactive count to the low-count; with
inverted polarity they are exchanged; and nothing is sticky: after an inverted request the same normal request leaves
the registers that it leaves without the inverted one. -/
def Obligations.StandardPolaritySwap : Prop :=
  (∀ (cl : DutyClass) (period pulse : U32),
    stdValues cl period pulse false = [.hcnt (stdPair cl period pulse).1, .lcnt (stdPair cl period pulse).2] ∧
    stdValues cl period pulse true = [.hcnt (stdPair cl period pulse).2, .lcnt (stdPair cl period pulse).1]) ∧
  (∀ (s : State) (r : StdRegs) (channel period pulse : U32),
    s.phase = .running → s.block = .std r → channel.toNat < s.cfg.channels.toNat →
    ∃ tn ti tr rn ri, exec (.setw channel period pulse false) s = .next tn ∧ tn.block = .std rn ∧
      exec (.setw channel period pulse true) s = .next ti ∧ ti.block = .std ri ∧
      ri = { rn with hcnt := rn.lcnt, lcnt := rn.hcnt } ∧
      exec (.setw channel period pulse false) ti = .next tr ∧ tr.block = tn.block)

/-- In the ZERO and FULL classes the operands' numbers do not matter (42_set_waveform.md, Laws, items a and b: the
spec's derivation; for the Enhanced FULL class decision D9, log 18). -/
def Obligations.BoundaryIgnoresCounts : Prop :=
  ∀ (s : State) (c p q u v : U32) (inv : Bool),
    (p ≠ 0 → q ≠ 0 → exec (.setw c p p inv) s = exec (.setw c q q inv) s) ∧
    (exec (.setw c 0 u inv) s = exec (.setw c 0 v inv) s) ∧
    (exec (.setw c 0 u inv) s = exec (.setw c p 0 inv) s)

/-! ### Write groups and the commit protocol -/

/-- R46: a commit disables the timer, writes the values and re-enables it, appending exactly three groups. -/
def Obligations.CommitThreeGroups : Prop :=
  ∀ (s : State) (V : WriteGroup),
    s.commit V = { s with
      block := ((s.block.apply (s.block.enGroup 0)).apply V).apply (s.block.enGroup 1)
      trace := s.trace ++ [.wg (s.block.enGroup 0), .wg V, .wg (s.block.enGroup 1)] } ∧
    (s.block.apply (s.block.enGroup 0)).en = 0 ∧
    (s.commit V).block.en = 1

/-- A write group gives each named field its value and leaves the others, and the order of its writes does not matter
(20_memory.md, Byte order, alignment, widths; that the model lists them in one order is decision D11, log 13). -/
def Obligations.GroupOrderIrrelevant : Prop :=
  (∀ (r : EnhRegs) (ws vs : List EnhWrite), (ws.map EnhWrite.number).Nodup → ws.Perm vs →
    r.writes ws = r.writes vs ∧
    (∀ w ∈ ws, (r.writes ws).x w.number = some w.value) ∧
    (∀ n, n ∉ ws.map EnhWrite.number → (r.writes ws).x n = r.x n)) ∧
  (∀ (r : StdRegs) (ws vs : List StdWrite), (ws.map StdWrite.number).Nodup → ws.Perm vs →
    r.writes ws = r.writes vs ∧
    (∀ w ∈ ws, (r.writes ws).x w.number = some w.value) ∧
    (∀ n, n ∉ ws.map StdWrite.number → (r.writes ws).x n = r.x n))

/-! ### The decode functions -/

/-- STDDEC undoes StdValues in every class and polarity, also where the difference wraps (44_decode.md, STDDEC; the
spec's own derivation, decision D23; D10, log 19). -/
def Obligations.StddecOfStdValues : Prop :=
  ∀ (period pulse : U32) (inv : Bool) (h l : U32),
    stdValues (classify period pulse) period pulse inv = [.hcnt h, .lcnt l] →
    stddec h l inv = some (match classify period pulse with
      | .zero => .zero
      | .full => .full
      | .general => .general period pulse)

/-- Every decoded Standard image re-encodes to itself; which images decode to none; and what reading under the other
polarity means (44_decode.md, STDDEC; decision D23). -/
def Obligations.StddecImages : Prop :=
  (∀ (h l : U32) (inv : Bool) (d : Duty), stddec h l inv = some d →
    ∃ period pulse, classify period pulse = d.dutyClass ∧
      (∀ p u, d = .general p u → p = period ∧ u = pulse) ∧
      stdValues (classify period pulse) period pulse inv = [.hcnt h, .lcnt l]) ∧
  (∀ a i : U32, stddec a i false = none ↔
    (a = 0 ∧ i ≠ 0xFFFFFFFF) ∨ (i = 0 ∧ a ≠ 0xFFFFFFFF) ∨ (a ≠ 0 ∧ i ≠ 0 ∧ a + i = 0)) ∧
  (∀ h l : U32, stddec h l true = stddec l h false)

/-- What ENHDEC reads from the registers a successful SETW leaves, with its one collision (44_decode.md, ENHDEC; decision
D23; D9, log 18). -/
def Obligations.EnhdecAfterSetw : Prop :=
  ∀ (s : State) (r : EnhRegs) (channel period pulse : U32) (inv : Bool),
    s.phase = .running → s.block = .enh r → channel.toNat < s.cfg.channels.toNat →
    ∃ t r', exec (.setw channel period pulse inv) s = .next t ∧ t.block = .enh r' ∧
      enhdec r'.maxcnt r'.cmp =
        if period = 0 ∨ pulse = 0 then some .zero
        else if period = pulse then some .full
        else if period = 0xFFFFFFFE ∧ pulse = 0xFFFFFFFF then some .zero
        else some (.general period pulse)

/-! ### GETF -/

/-- GETF on a valid channel with a non-zero prescaler completes with the truncated quotient of the recorded clock by the
configured prescaler and changes nothing else (43_frequency_query.md, GETF; decision D28, log 23). -/
def Obligations.GetfQuotient : Prop :=
  ∀ (s : State) (channel : U32), s.phase = .running → channel.toNat < s.cfg.channels.toNat → s.cfg.prescaler ≠ 0 →
    exec (.getf channel) s = .next { s with
      answer := some (.rsp ⟨.ok, BitVec.ofNat 64 (s.clkHz.toNat / s.cfg.prescaler.toNat)⟩) }

/-- For a recognized prescaler the reported rate is exact, and it is the rate the timer is programmed for
(43_frequency_query.md, The value; 60_exceptions.md, section 6; the spec's derivations). -/
def Obligations.RecognizedRateExact : Prop :=
  ∀ (s : State) (channel : U32), s.RunningConfigured → s.phase = .running → channel.toNat < s.cfg.channels.toNat →
    s.cfg.prescaler ∈ recognizedSet →
    ∃ t v, exec (.getf channel) s = .next t ∧ t.answer = some (.rsp ⟨.ok, v⟩) ∧
      v.toNat * s.cfg.prescaler.toNat = 40000000 ∧ s.programmedRate = some v

/-- The silent divider fallback: for an unrecognized non-zero prescaler the timer is programmed for 40,000,000 ticks per
second and GETF reports less (70_reset_and_hazards.md, Silent divider fallback: the spec's derivation; decision D28, log
23). -/
def Obligations.UnrecognizedRateDiffers : Prop :=
  ∀ (s : State) (channel : U32), s.RunningConfigured → s.phase = .running → channel.toNat < s.cfg.channels.toNat →
    s.cfg.prescaler ∉ recognizedSet → s.cfg.prescaler ≠ 0 →
    ∃ t v, exec (.getf channel) s = .next t ∧ t.answer = some (.rsp ⟨.ok, v⟩) ∧
      v.toNat < 40000000 ∧ s.programmedRate = some 40000000

/-- A GETF changes no other instruction's outcome: what is run after it runs as if it had not been
(43_frequency_query.md, Corner cases, items h and i: the spec's derivation). -/
def Obligations.GetfTransparent : Prop :=
  ∀ (s t : State) (channel : U32) (i : Instr), exec (.getf channel) s = .next t → exec i t = exec i s

/-! ### Errors and responses -/

/-- InvalidChannel is the answer of a SETW or a GETF in RUNNING exactly when its channel is not below the channel count,
unsigned; its value is zero and it changes nothing; no other instruction gives it (60_exceptions.md, Error causes and
codes; 43_frequency_query.md, GETF). That GETF gives it is decision D14 on conflict C2 (log 30). -/
def Obligations.InvalidChannelError : Prop :=
  (∀ (s : State) (channel period pulse : U32) (inv : Bool),
    s.phase = .running → s.cfg.channels.toNat ≤ channel.toNat →
    exec (.setw channel period pulse inv) s = .next { s with answer := some (.rsp ⟨.invalidChannel, 0⟩) } ∧
    exec (.getf channel) s = .next { s with answer := some (.rsp ⟨.invalidChannel, 0⟩) }) ∧
  (∀ (i : Instr) (s t : State) (v : U64), exec i s = .next t → t.answer = some (.rsp ⟨.invalidChannel, v⟩) →
    v = 0 ∧ s.phase = .running ∧ t = { s with answer := some (.rsp ⟨.invalidChannel, 0⟩) } ∧
    ∃ channel : U32, s.cfg.channels.toNat ≤ channel.toNat ∧
      (i = .getf channel ∨ ∃ period pulse inv, i = .setw channel period pulse inv))

/-- An error changes nothing but the response, except that an erroring INIT has made its two collaborator calls and used
up the answer it drew (60_exceptions.md, Error entry and return). That a failed INIT leaves only its two events, in this
order, and writes no register and no driver state is decision D12 (log 24); the draw is held as log 3 says, and the
error as log 11 says. -/
def Obligations.ErrorsArePrecise : Prop :=
  ∀ (i : Instr) (s t : State) (st : Status) (v : U64),
    exec i s = .next t → t.answer = some (.rsp ⟨st, v⟩) → st ≠ .ok →
    (i ≠ .init ∧ t = { s with answer := some (.rsp ⟨st, v⟩) }) ∨
    (i = .init ∧ ∃ e : DepErr, e.val = v ∧ t = { s with
      trace := s.trace ++ [.clkgate s.cfg.clockId, .pinmux (.fail e)]
      pinmux := s.pinmux.tail
      draws := s.draws + 1
      answer := some (.rsp ⟨st, v⟩) })

/-- Every command that is accepted gives one response, with a value that is zero unless GETF or a DependencyFailure puts
one there, and the selector gives a code (30_encoding.md, Response word; decision D3; the answer is the model's, log 4). -/
def Obligations.AcceptedRequestsAnswer : Prop :=
  ∀ (i : Instr) (s t : State), exec i s = .next t →
    ((∃ c, t.answer = some (.code c)) ∧ (∃ p, encode i = .psc p)) ∨
    (∃ r, t.answer = some (.rsp r) ∧ (∃ w, encode i = .cmd w) ∧
      (r.value ≠ 0 → (∃ c, i = .getf c) ∨ r.status = .dependencyFailure))

/-- The response word holds the status in its two upper bits and the value below, never the status 3, and tells any two
responses apart (30_encoding.md, Response word; decision D3). -/
def Obligations.ResponseWord : Prop :=
  (∀ r : Response, r.word.toNat / 2 ^ 64 =
      (match r.status with | .ok => 0 | .invalidChannel => 1 | .dependencyFailure => 2) ∧
    r.word.toNat % 2 ^ 64 = r.value.toNat) ∧
  (∀ a b : Response, a.word = b.word → a = b)

/-! ### What every step keeps, and who may change what -/

/-- The phase changes only from UNINIT to RUNNING, and only by an INIT that answers OK (10_state.md, Driver state). -/
def Obligations.PhaseNeverReturns : Prop :=
  ∀ s t : State, step s = .next t → s.phase ≠ t.phase →
    s.phase = .uninit ∧ t.phase = .running ∧ t.answer = some (.rsp ⟨.ok, 0⟩) ∧ s.nextPinmux = .ok ∧
    ∃ w rest, s.inbox = .request w :: rest ∧ decode w = .ok .init

/-- No step changes the configuration, the variant or the instance's number (10_state.md, Configuration; decision D4; kept in
State by the model's choice, logs 6, 7 and 32). -/
def Obligations.ConfigurationFixed : Prop :=
  ∀ s t : State, step s = .next t → t.cfg = s.cfg ∧ t.isEnhanced = s.isEnhanced ∧ t.ident = s.ident

/-- Events are only appended, and by no other patterns than these: none, a failed INIT's two, a successful INIT's four, a
SETW's three (10_state.md, The trace; 41_initialize.md, INIT; 42_set_waveform.md, Commit; decisions D12, D27, D29). -/
def Obligations.TraceOnlyGrows : Prop :=
  ∀ s t : State, step s = .next t →
    t.trace = s.trace ∨
    (∃ e, t.trace = s.trace ++ [.clkgate s.cfg.clockId, .pinmux (.fail e)]) ∨
    (∃ g, t.trace = s.trace ++ [.clkgate s.cfg.clockId, .pinmux .ok, .wg g, .wg (s.block.enGroup 1)]) ∨
    (∃ g, t.trace = s.trace ++ [.wg (s.block.enGroup 0), .wg g, .wg (s.block.enGroup 1)])

/-- R104: a successful INIT writes 40,000,000 into CLK_HZ, whatever the configuration is, and no other step writes it. -/
def Obligations.ClkHzWrittenOnlyByInit : Prop :=
  (∀ s : State, s.phase = .uninit → s.nextPinmux = .ok →
    ∃ t, exec .init s = .next t ∧ t.phase = .running ∧ t.clkHz = 40000000) ∧
  (∀ s t : State, step s = .next t →
    t.clkHz = s.clkHz ∨ (s.phase = .uninit ∧ t.phase = .running ∧ t.clkHz = 40000000))

/-- The start-polarity bit changes only by an INIT or by an inverted SETW, which sets it; in RUNNING nothing clears it
(10_state.md, section 2; 42_set_waveform.md, Enhanced start polarity; 70_reset_and_hazards.md, Sticky start polarity;
decision D8, log 17). -/
def Obligations.StartPolWriters : Prop :=
  ∀ (s t : State) (r r' : EnhRegs), step s = .next t → s.block = .enh r → t.block = .enh r' →
    (r'.startpol ≠ r.startpol → ∃ w rest, s.inbox = .request w :: rest ∧
      (decode w = .ok .init ∨ (r'.startpol = 1 ∧ ∃ c p u, decode w = .ok (.setw c p u true)))) ∧
    (s.phase = .running → r.startpol = 1 → r'.startpol = 1)

/-- Nothing but the registers themselves depends on what the registers hold: with other register contents of the same
variant a step has the same outcome, answer, events and driver state (20_memory.md, section 2; decision D27, log 22). -/
def Obligations.RegistersDoNotInfluence : Prop :=
  ∀ (s : State) (b : Block), ({ s with block := b } : State).isEnhanced = s.isEnhanced →
    (∀ r, step s = .refused r ↔ step { s with block := b } = .refused r) ∧
    (∀ t, step s = .next t → ∃ b', step { s with block := b } = .next { t with block := b' })

/-- Every step keeps the clock and the configuration fields as INIT left them in RUNNING (41_initialize.md, Commit and
enable; 42_set_waveform.md, SETW writes no configuration field). -/
def Obligations.StepKeepsRunningConfigured : Prop :=
  ∀ s t : State, s.RunningConfigured → step s = .next t → t.RunningConfigured

/-- The commit discipline: the registers are always what the recorded groups make of the first block, every group that
writes anything besides EN meets a disabled timer, and between commands the timer is enabled exactly in RUNNING
(10_state.md, Driver state; 20_memory.md, Ordering; 70_reset_and_hazards.md, The disabled window; decisions D12, D16,
D29, logs 20 and 24). -/
def Obligations.StepKeepsCommitDiscipline : Prop :=
  ∀ (b0 : Block) (s t : State), s.FollowsTrace b0 → s.EnabledByPhase → step s = .next t →
    t.FollowsTrace b0 ∧ t.EnabledByPhase

/-- In RUNNING the count registers always hold an image that the decoders read (44_decode.md, STDDEC and ENHDEC: no SETW
and no INIT produces the others; the spec's derivation, decisions D9, D10, D23). -/
def Obligations.StepKeepsCountsDecode : Prop :=
  ∀ s t : State, s.CountsDecode → step s = .next t → t.CountsDecode

/-- ENH.STARTPOL tells whether an inverted SETW has been served since INIT (44_decode.md, ENHDEC; decision D8, log 17). That
no group is recorded in UNINIT, so that a failed INIT writes no register, is decision D12, log 24 (41_initialize.md,
INIT). -/
def Obligations.StepKeepsStartPolRecorded : Prop :=
  ∀ s t : State, s.StartPolRecorded → step s = .next t → t.StartPolRecorded

/-- Reset leaves PHASE at UNINIT, the timer disabled and TRACE empty (10_state.md, Reset values; EN = 0 is decision D16,
log 20; that nothing is asked and nothing answered yet is the model's, logs 1 and 4). -/
def Obligations.ResetState : Prop :=
  State.reset.phase = .uninit ∧ State.reset.block.en = 0 ∧ State.reset.trace = [] ∧
  State.reset.inbox = [] ∧ State.reset.answer = none ∧ step State.reset = .next State.reset

/-- Reset, with any configuration, meets the invariants that every step keeps (10_state.md, Reset values). That EN is 0 at
reset, on which `EnabledByPhase` rests, is decision D16 (log 20). -/
def Obligations.ResetMeetsInvariants : Prop :=
  ∀ (k : Nat) (enhanced : Bool) (cfg : InstanceConfig),
    (State.resetWith k enhanced cfg).RunningConfigured ∧
    (State.resetWith k enhanced cfg).FollowsTrace (State.resetWith k enhanced cfg).block ∧
    (State.resetWith k enhanced cfg).EnabledByPhase ∧
    (State.resetWith k enhanced cfg).CountsDecode ∧
    (State.resetWith k enhanced cfg).StartPolRecorded

/-! ### Fields as bits at addresses -/

/-- At the places that ENUM_ENC and REG_LAYOUT give the fields, whatever these are, a write group puts the bits of its
values, `BASE + offset` being the address, and leaves the bits of the other fields (20_memory.md, Address space and
address map; the two parameters are unknown constants, logs 10 and 31; that the address is a sum of natural numbers without a
wrap is the model's choice, log 34). -/
def Obligations.GroupAtItsPlaces : Prop :=
  (∀ (s : State) (r : EnhRegs) (ws : List EnhWrite), s.block = .enh r → (ws.map EnhWrite.number).Nodup →
    (∀ w ∈ ws, (s.regGroup (.enh ws)).fieldAccess w.number =
      some ⟨s.cfg.base + (Config.regLayout.enh w.number).offset, (Config.regLayout.enh w.number).bit,
        w.value.width, w.value.image⟩) ∧
    (∀ n, n ∉ ws.map EnhWrite.number → (s.regGroup (.enh ws)).fieldAccess n = s.fieldAccess n)) ∧
  (∀ (s : State) (r : StdRegs) (ws : List StdWrite), s.block = .std r → (ws.map StdWrite.number).Nodup →
    (∀ w ∈ ws, (s.regGroup (.std ws)).fieldAccess w.number =
      some ⟨s.cfg.base + (Config.regLayout.std w.number).offset, (Config.regLayout.std w.number).bit,
        w.value.width, w.value.image⟩) ∧
    (∀ n, n ∉ ws.map StdWrite.number → (s.regGroup (.std ws)).fieldAccess n = s.fieldAccess n))

/-! ### Several instances -/

/-- Instances share no state and their commands are independent: a step of one is that instance's own step, leaves every
other instance as it is and changes neither what another one does nor whether it is refused, and the steps of two
instances give the same platform in either order (60_exceptions.md, section 6). -/
def Obligations.InstancesIndependent : Prop :=
  (∀ (p : Platform) (k : Nat) (s t : State), p[k]? = some s → step s = .next t →
    p.stepAt k = some (.next (p.set k t))) ∧
  (∀ (p q : Platform) (j k : Nat), j ≠ k → p.stepAt j = some (.next q) →
    q[k]? = p[k]? ∧
    (∀ r, q.stepAt k = some (.refused r) ↔ p.stepAt k = some (.refused r)) ∧
    (∀ u, p.stepAt k = some (.next u) → ∃ v, q.stepAt k = some (.next v) ∧ u.stepAt j = some (.next v)))

/-- Any number of instances, each with its own configuration and variant, comes out of reset numbered by their places; a step
of any of them keeps the number at every place, and so keeps the numbers pairwise different; and where the state fixes no
answer, an instance draws its pin-mux answer at its own number and its own count of draws (60_exceptions.md, section 6; the
numbers and where a draw is taken are the model's, logs 3 and 32). -/
def Obligations.InstancesDrawApart : Prop :=
  (∀ cs : List (Bool × InstanceConfig), (Platform.reset cs).Distinct ∧ (Platform.reset cs).length = cs.length ∧
    ∀ (k : Nat) (s : State), (Platform.reset cs)[k]? = some s → s.ident = k) ∧
  (∀ (p q : Platform) (k : Nat), p.stepAt k = some (.next q) →
    (∀ j : Nat, q[j]?.map State.ident = p[j]?.map State.ident) ∧ (p.Distinct → q.Distinct)) ∧
  (∀ s : State, s.pinmux = [] → s.nextPinmux = Config.pinmuxAnswer s.ident s.draws)
end

