-- ==== Sys2Proof/Laws/Encoding.lean ====
section
/-! SUPPORT. The bits of a command word, field by field (30_encoding.md R61). -/

namespace Sys2Proof.Command

/-- Which bit of which field each bit of a word is. -/
theorem word_getLsbD (o : BitVec 2) (v : Bool) (c p u : U32) (i : Nat) :
    (word o v c p u).getLsbD i =
      if i < 32 then u.getLsbD i
      else if i < 64 then p.getLsbD (i - 32)
      else if i < 96 then c.getLsbD (i - 64)
      else if i < 97 then v
      else if i < 126 then false
      else o.getLsbD (i - 126) := by
  simp only [word, BitVec.getLsbD_append, Nat.sub_sub]
  split_ifs <;> first | omega | rfl | skip
  · simp only [show i - 96 = 0 by omega, BitVec.getLsbD_ofBool, decide_true, Bool.true_and]
  · simp

end Sys2Proof.Command
end

