-- ==== Sys2Proof/Laws/State.lean ====
section
/-! SUPPORT. What each operation over the state does to each of its fields, so that no proof unfolds an update. -/

namespace Sys2Proof.Machine

@[simp] theorem State.emit_ident (s : State) (e : Event) : (s.emit e).ident = s.ident := rfl
@[simp] theorem State.emit_cfg (s : State) (e : Event) : (s.emit e).cfg = s.cfg := rfl
@[simp] theorem State.emit_phase (s : State) (e : Event) : (s.emit e).phase = s.phase := rfl
@[simp] theorem State.emit_clkHz (s : State) (e : Event) : (s.emit e).clkHz = s.clkHz := rfl
@[simp] theorem State.emit_block (s : State) (e : Event) : (s.emit e).block = s.block := rfl
@[simp] theorem State.emit_trace (s : State) (e : Event) : (s.emit e).trace = s.trace ++ [e] := rfl
@[simp] theorem State.emit_inbox (s : State) (e : Event) : (s.emit e).inbox = s.inbox := rfl
@[simp] theorem State.emit_pinmux (s : State) (e : Event) : (s.emit e).pinmux = s.pinmux := rfl
@[simp] theorem State.emit_draws (s : State) (e : Event) : (s.emit e).draws = s.draws := rfl
@[simp] theorem State.emit_answer (s : State) (e : Event) : (s.emit e).answer = s.answer := rfl

@[simp] theorem State.regGroup_ident (s : State) (g : WriteGroup) : (s.regGroup g).ident = s.ident := rfl
@[simp] theorem State.regGroup_cfg (s : State) (g : WriteGroup) : (s.regGroup g).cfg = s.cfg := rfl
@[simp] theorem State.regGroup_phase (s : State) (g : WriteGroup) : (s.regGroup g).phase = s.phase := rfl
@[simp] theorem State.regGroup_clkHz (s : State) (g : WriteGroup) : (s.regGroup g).clkHz = s.clkHz := rfl
@[simp] theorem State.regGroup_block (s : State) (g : WriteGroup) : (s.regGroup g).block = s.block.apply g := rfl
@[simp] theorem State.regGroup_trace (s : State) (g : WriteGroup) : (s.regGroup g).trace = s.trace ++ [.wg g] := rfl
@[simp] theorem State.regGroup_inbox (s : State) (g : WriteGroup) : (s.regGroup g).inbox = s.inbox := rfl
@[simp] theorem State.regGroup_pinmux (s : State) (g : WriteGroup) : (s.regGroup g).pinmux = s.pinmux := rfl
@[simp] theorem State.regGroup_draws (s : State) (g : WriteGroup) : (s.regGroup g).draws = s.draws := rfl
@[simp] theorem State.regGroup_answer (s : State) (g : WriteGroup) : (s.regGroup g).answer = s.answer := rfl

@[simp] theorem State.setEnable_ident (s : State) (v : Bit) : (s.setEnable v).ident = s.ident := rfl
@[simp] theorem State.setEnable_cfg (s : State) (v : Bit) : (s.setEnable v).cfg = s.cfg := rfl
@[simp] theorem State.setEnable_phase (s : State) (v : Bit) : (s.setEnable v).phase = s.phase := rfl
@[simp] theorem State.setEnable_clkHz (s : State) (v : Bit) : (s.setEnable v).clkHz = s.clkHz := rfl
@[simp] theorem State.setEnable_block (s : State) (v : Bit) : (s.setEnable v).block = s.block.apply (s.block.enGroup v) := rfl
@[simp] theorem State.setEnable_trace (s : State) (v : Bit) : (s.setEnable v).trace = s.trace ++ [.wg (s.block.enGroup v)] := rfl
@[simp] theorem State.setEnable_inbox (s : State) (v : Bit) : (s.setEnable v).inbox = s.inbox := rfl
@[simp] theorem State.setEnable_pinmux (s : State) (v : Bit) : (s.setEnable v).pinmux = s.pinmux := rfl
@[simp] theorem State.setEnable_draws (s : State) (v : Bit) : (s.setEnable v).draws = s.draws := rfl
@[simp] theorem State.setEnable_answer (s : State) (v : Bit) : (s.setEnable v).answer = s.answer := rfl

@[simp] theorem State.drawn_ident (s : State) : (s.drawn).ident = s.ident := rfl
@[simp] theorem State.drawn_cfg (s : State) : (s.drawn).cfg = s.cfg := rfl
@[simp] theorem State.drawn_phase (s : State) : (s.drawn).phase = s.phase := rfl
@[simp] theorem State.drawn_clkHz (s : State) : (s.drawn).clkHz = s.clkHz := rfl
@[simp] theorem State.drawn_block (s : State) : (s.drawn).block = s.block := rfl
@[simp] theorem State.drawn_trace (s : State) : (s.drawn).trace = s.trace := rfl
@[simp] theorem State.drawn_inbox (s : State) : (s.drawn).inbox = s.inbox := rfl
@[simp] theorem State.drawn_pinmux (s : State) : (s.drawn).pinmux = s.pinmux.tail := rfl
@[simp] theorem State.drawn_draws (s : State) : (s.drawn).draws = s.draws + 1 := rfl
@[simp] theorem State.drawn_answer (s : State) : (s.drawn).answer = s.answer := rfl

@[simp] theorem State.respond_ident (s : State) (r : Response) : (s.respond r).ident = s.ident := rfl
@[simp] theorem State.respond_cfg (s : State) (r : Response) : (s.respond r).cfg = s.cfg := rfl
@[simp] theorem State.respond_phase (s : State) (r : Response) : (s.respond r).phase = s.phase := rfl
@[simp] theorem State.respond_clkHz (s : State) (r : Response) : (s.respond r).clkHz = s.clkHz := rfl
@[simp] theorem State.respond_block (s : State) (r : Response) : (s.respond r).block = s.block := rfl
@[simp] theorem State.respond_trace (s : State) (r : Response) : (s.respond r).trace = s.trace := rfl
@[simp] theorem State.respond_inbox (s : State) (r : Response) : (s.respond r).inbox = s.inbox := rfl
@[simp] theorem State.respond_pinmux (s : State) (r : Response) : (s.respond r).pinmux = s.pinmux := rfl
@[simp] theorem State.respond_draws (s : State) (r : Response) : (s.respond r).draws = s.draws := rfl
@[simp] theorem State.respond_answer (s : State) (r : Response) : (s.respond r).answer = some (.rsp r) := rfl

@[simp] theorem State.returnUnit_ident (s : State) : (s.returnUnit).ident = s.ident := rfl
@[simp] theorem State.returnUnit_cfg (s : State) : (s.returnUnit).cfg = s.cfg := rfl
@[simp] theorem State.returnUnit_phase (s : State) : (s.returnUnit).phase = s.phase := rfl
@[simp] theorem State.returnUnit_clkHz (s : State) : (s.returnUnit).clkHz = s.clkHz := rfl
@[simp] theorem State.returnUnit_block (s : State) : (s.returnUnit).block = s.block := rfl
@[simp] theorem State.returnUnit_trace (s : State) : (s.returnUnit).trace = s.trace := rfl
@[simp] theorem State.returnUnit_inbox (s : State) : (s.returnUnit).inbox = s.inbox := rfl
@[simp] theorem State.returnUnit_pinmux (s : State) : (s.returnUnit).pinmux = s.pinmux := rfl
@[simp] theorem State.returnUnit_draws (s : State) : (s.returnUnit).draws = s.draws := rfl
@[simp] theorem State.returnUnit_answer (s : State) : (s.returnUnit).answer = some (.rsp ⟨.ok, 0⟩) := rfl

@[simp] theorem State.returnValue_ident (s : State) (v : U64) : (s.returnValue v).ident = s.ident := rfl
@[simp] theorem State.returnValue_cfg (s : State) (v : U64) : (s.returnValue v).cfg = s.cfg := rfl
@[simp] theorem State.returnValue_phase (s : State) (v : U64) : (s.returnValue v).phase = s.phase := rfl
@[simp] theorem State.returnValue_clkHz (s : State) (v : U64) : (s.returnValue v).clkHz = s.clkHz := rfl
@[simp] theorem State.returnValue_block (s : State) (v : U64) : (s.returnValue v).block = s.block := rfl
@[simp] theorem State.returnValue_trace (s : State) (v : U64) : (s.returnValue v).trace = s.trace := rfl
@[simp] theorem State.returnValue_inbox (s : State) (v : U64) : (s.returnValue v).inbox = s.inbox := rfl
@[simp] theorem State.returnValue_pinmux (s : State) (v : U64) : (s.returnValue v).pinmux = s.pinmux := rfl
@[simp] theorem State.returnValue_draws (s : State) (v : U64) : (s.returnValue v).draws = s.draws := rfl
@[simp] theorem State.returnValue_answer (s : State) (v : U64) : (s.returnValue v).answer = some (.rsp ⟨.ok, v⟩) := rfl

@[simp] theorem State.raise_ident (s : State) (e : CmdError) : (s.raise e).ident = s.ident := rfl
@[simp] theorem State.raise_cfg (s : State) (e : CmdError) : (s.raise e).cfg = s.cfg := rfl
@[simp] theorem State.raise_phase (s : State) (e : CmdError) : (s.raise e).phase = s.phase := rfl
@[simp] theorem State.raise_clkHz (s : State) (e : CmdError) : (s.raise e).clkHz = s.clkHz := rfl
@[simp] theorem State.raise_block (s : State) (e : CmdError) : (s.raise e).block = s.block := rfl
@[simp] theorem State.raise_trace (s : State) (e : CmdError) : (s.raise e).trace = s.trace := rfl
@[simp] theorem State.raise_inbox (s : State) (e : CmdError) : (s.raise e).inbox = s.inbox := rfl
@[simp] theorem State.raise_pinmux (s : State) (e : CmdError) : (s.raise e).pinmux = s.pinmux := rfl
@[simp] theorem State.raise_draws (s : State) (e : CmdError) : (s.raise e).draws = s.draws := rfl
@[simp] theorem State.raise_answer (s : State) (e : CmdError) : (s.raise e).answer = some (.rsp e.response) := rfl

@[simp] theorem State.returnCode_ident (s : State) (c : DivCode) : (s.returnCode c).ident = s.ident := rfl
@[simp] theorem State.returnCode_cfg (s : State) (c : DivCode) : (s.returnCode c).cfg = s.cfg := rfl
@[simp] theorem State.returnCode_phase (s : State) (c : DivCode) : (s.returnCode c).phase = s.phase := rfl
@[simp] theorem State.returnCode_clkHz (s : State) (c : DivCode) : (s.returnCode c).clkHz = s.clkHz := rfl
@[simp] theorem State.returnCode_block (s : State) (c : DivCode) : (s.returnCode c).block = s.block := rfl
@[simp] theorem State.returnCode_trace (s : State) (c : DivCode) : (s.returnCode c).trace = s.trace := rfl
@[simp] theorem State.returnCode_inbox (s : State) (c : DivCode) : (s.returnCode c).inbox = s.inbox := rfl
@[simp] theorem State.returnCode_pinmux (s : State) (c : DivCode) : (s.returnCode c).pinmux = s.pinmux := rfl
@[simp] theorem State.returnCode_draws (s : State) (c : DivCode) : (s.returnCode c).draws = s.draws := rfl
@[simp] theorem State.returnCode_answer (s : State) (c : DivCode) : (s.returnCode c).answer = some (.code c) := rfl

@[simp] theorem State.callCollaborators_ident (s : State) : (s.callCollaborators).ident = s.ident := rfl
@[simp] theorem State.callCollaborators_cfg (s : State) : (s.callCollaborators).cfg = s.cfg := rfl
@[simp] theorem State.callCollaborators_phase (s : State) : (s.callCollaborators).phase = s.phase := rfl
@[simp] theorem State.callCollaborators_clkHz (s : State) : (s.callCollaborators).clkHz = s.clkHz := rfl
@[simp] theorem State.callCollaborators_block (s : State) : (s.callCollaborators).block = s.block := rfl
@[simp] theorem State.callCollaborators_trace (s : State) : (s.callCollaborators).trace = s.trace ++ [.clkgate s.cfg.clockId] ++ [.pinmux s.nextPinmux] := rfl
@[simp] theorem State.callCollaborators_inbox (s : State) : (s.callCollaborators).inbox = s.inbox := rfl
@[simp] theorem State.callCollaborators_pinmux (s : State) : (s.callCollaborators).pinmux = s.pinmux.tail := rfl
@[simp] theorem State.callCollaborators_draws (s : State) : (s.callCollaborators).draws = s.draws + 1 := rfl
@[simp] theorem State.callCollaborators_answer (s : State) : (s.callCollaborators).answer = s.answer := rfl

@[simp] theorem State.bringUp_ident (s : State) : (s.bringUp).ident = s.ident := rfl
@[simp] theorem State.bringUp_cfg (s : State) : (s.bringUp).cfg = s.cfg := rfl
@[simp] theorem State.bringUp_phase (s : State) : (s.bringUp).phase = .running := rfl
@[simp] theorem State.bringUp_clkHz (s : State) : (s.bringUp).clkHz = clkHzConst := rfl
@[simp] theorem State.bringUp_inbox (s : State) : (s.bringUp).inbox = s.inbox := rfl
@[simp] theorem State.bringUp_pinmux (s : State) : (s.bringUp).pinmux = s.pinmux := rfl
@[simp] theorem State.bringUp_draws (s : State) : (s.bringUp).draws = s.draws := rfl
@[simp] theorem State.bringUp_answer (s : State) : (s.bringUp).answer = s.answer := rfl

@[simp] theorem State.commit_ident (s : State) (g : WriteGroup) : (s.commit g).ident = s.ident := rfl
@[simp] theorem State.commit_cfg (s : State) (g : WriteGroup) : (s.commit g).cfg = s.cfg := rfl
@[simp] theorem State.commit_phase (s : State) (g : WriteGroup) : (s.commit g).phase = s.phase := rfl
@[simp] theorem State.commit_clkHz (s : State) (g : WriteGroup) : (s.commit g).clkHz = s.clkHz := rfl
@[simp] theorem State.commit_inbox (s : State) (g : WriteGroup) : (s.commit g).inbox = s.inbox := rfl
@[simp] theorem State.commit_pinmux (s : State) (g : WriteGroup) : (s.commit g).pinmux = s.pinmux := rfl
@[simp] theorem State.commit_draws (s : State) (g : WriteGroup) : (s.commit g).draws = s.draws := rfl
@[simp] theorem State.commit_answer (s : State) (g : WriteGroup) : (s.commit g).answer = s.answer := rfl

@[simp] theorem State.withRequest_ident (s : State) (nbits w : Nat) : (s.withRequest nbits w).ident = s.ident := rfl
@[simp] theorem State.withRequest_cfg (s : State) (nbits w : Nat) : (s.withRequest nbits w).cfg = s.cfg := rfl
@[simp] theorem State.withRequest_phase (s : State) (nbits w : Nat) : (s.withRequest nbits w).phase = s.phase := rfl
@[simp] theorem State.withRequest_clkHz (s : State) (nbits w : Nat) : (s.withRequest nbits w).clkHz = s.clkHz := rfl
@[simp] theorem State.withRequest_block (s : State) (nbits w : Nat) : (s.withRequest nbits w).block = s.block := rfl
@[simp] theorem State.withRequest_trace (s : State) (nbits w : Nat) : (s.withRequest nbits w).trace = s.trace := rfl
@[simp] theorem State.withRequest_inbox (s : State) (nbits w : Nat) : (s.withRequest nbits w).inbox = .request (tableWord nbits w) :: s.inbox := rfl
@[simp] theorem State.withRequest_pinmux (s : State) (nbits w : Nat) : (s.withRequest nbits w).pinmux = s.pinmux := rfl
@[simp] theorem State.withRequest_draws (s : State) (nbits w : Nat) : (s.withRequest nbits w).draws = s.draws := rfl
@[simp] theorem State.withRequest_answer (s : State) (nbits w : Nat) : (s.withRequest nbits w).answer = s.answer := rfl
end Sys2Proof.Machine
end

