-- ==== Sys2Proof/Laws/Ops.lean ====
section
/-! SUPPORT. What the shared operations do, once: write groups, the commit protocol, the draw, the bring-up, the fetch. -/

namespace Sys2Proof.Machine

/-- A write group never changes which block the instance has. -/
theorem Block.enGroup_apply (b : Block) (g : WriteGroup) (v : Bit) : (b.apply g).enGroup v = b.enGroup v := by
  cases b <;> cases g <;> rfl

/-- The group that writes only `EN` writes it. -/
theorem Block.en_apply_enGroup (b : Block) (v : Bit) : (b.apply (b.enGroup v)).en = v := by
  cases b <;> rfl

/-- The variant is kept by every group. -/
theorem State.isEnhanced_regGroup (s : State) (g : WriteGroup) : (s.regGroup g).isEnhanced = s.isEnhanced := by
  unfold State.isEnhanced
  rw [State.regGroup_block]
  cases s.block <;> cases g <;> rfl

/-- No group moves a field. -/
@[simp] theorem Block.place_apply (b : Block) (g : WriteGroup) (n : Nat) : (b.apply g).place n = b.place n := by
  cases b <;> cases g <;> rfl

/-- A field lies where it lay, and its value has the bits it had, after every group. -/
@[simp] theorem State.access_regGroup (s : State) (g : WriteGroup) (n : Nat) (v : FieldValue) :
    (s.regGroup g).access n v = s.access n v := by
  simp [State.access]

/-- What stands at a field's place after a group: the field's value then, where it lay before. -/
theorem State.fieldAccess_regGroup (s : State) (g : WriteGroup) (n : Nat) :
    (s.regGroup g).fieldAccess n = ((s.block.apply g).x n).map (s.access n) := by
  unfold State.fieldAccess
  rw [State.regGroup_block]
  exact congrArg (((s.block.apply g).x n).map ·) (funext fun v => s.access_regGroup g n v)

/-- A field reads what a write has put there. -/
@[simp] theorem EnhRegs.x_write_number (r : EnhRegs) (w : EnhWrite) : (r.write w).x w.number = some w.value := by
  cases w <;> rfl

/-- A write leaves every other field. -/
theorem EnhRegs.x_write_of_ne (r : EnhRegs) (w : EnhWrite) (n : Nat) (h : n ≠ w.number) : (r.write w).x n = r.x n := by
  match n with
  | 0 | 1 | 2 | 3 | 4 | 5 | 6 | 7 | 8 => cases w <;> first | rfl | exact absurd rfl h
  | _ + 9 => rfl

/-- A field reads what a write has put there. -/
@[simp] theorem StdRegs.x_write_number (r : StdRegs) (w : StdWrite) : (r.write w).x w.number = some w.value := by
  cases w <;> rfl

/-- A write leaves every other field. -/
theorem StdRegs.x_write_of_ne (r : StdRegs) (w : StdWrite) (n : Nat) (h : n ≠ w.number) : (r.write w).x n = r.x n := by
  match n with
  | 0 | 1 | 2 | 3 | 4 | 5 | 6 | 7 => cases w <;> first | rfl | exact absurd rfl h
  | _ + 8 => rfl

/-- The first write of a list, then the rest. -/
@[simp] theorem EnhRegs.writes_cons (r : EnhRegs) (w : EnhWrite) (ws : List EnhWrite) :
    r.writes (w :: ws) = (r.write w).writes ws := rfl

/-- Nothing to write. -/
@[simp] theorem EnhRegs.writes_nil (r : EnhRegs) : r.writes [] = r := rfl

/-- The first write of a list, then the rest. -/
@[simp] theorem StdRegs.writes_cons (r : StdRegs) (w : StdWrite) (ws : List StdWrite) :
    r.writes (w :: ws) = (r.write w).writes ws := rfl

/-- Nothing to write. -/
@[simp] theorem StdRegs.writes_nil (r : StdRegs) : r.writes [] = r := rfl

/-- The block after a commit: the three groups applied in order. -/
theorem State.commit_block (s : State) (g : WriteGroup) :
    (s.commit g).block = ((s.block.apply (s.block.enGroup 0)).apply g).apply (s.block.enGroup 1) := by
  simp [State.commit, Block.enGroup_apply]

/-- The events of a commit: its three groups, in order. -/
theorem State.commit_trace (s : State) (g : WriteGroup) :
    (s.commit g).trace = s.trace ++ [.wg (s.block.enGroup 0)] ++ [.wg g] ++ [.wg (s.block.enGroup 1)] := by
  simp [State.commit, Block.enGroup_apply]

/-- The Enhanced block after a commit. -/
theorem State.commit_block_enh {s : State} {r : EnhRegs} (h : s.block = .enh r) (ws : List EnhWrite) :
    (s.commit (.enh ws)).block = .enh { ({ r with en := 0 } : EnhRegs).writes ws with en := 1 } := by
  rw [State.commit_block, h]
  rfl

/-- The Standard block after a commit. -/
theorem State.commit_block_std {s : State} {r : StdRegs} (h : s.block = .std r) (ws : List StdWrite) :
    (s.commit (.std ws)).block = .std { ({ r with en := 0 } : StdRegs).writes ws with en := 1 } := by
  rw [State.commit_block, h]
  rfl

/-- The bring-up's block: the baseline group, then `EN`. -/
theorem State.bringUp_block (s : State) :
    s.bringUp.block = (s.block.apply s.baseline).apply (s.block.enGroup 1) := by
  show (({ s with clkHz := clkHzConst } : State).regGroup s.baseline |>.setEnable 1).block = _
  simp [Block.enGroup_apply]

/-- The bring-up's events: the baseline group, then `EN`. -/
theorem State.bringUp_trace (s : State) :
    s.bringUp.trace = s.trace ++ [.wg s.baseline] ++ [.wg (s.block.enGroup 1)] := by
  show (({ s with clkHz := clkHzConst } : State).regGroup s.baseline |>.setEnable 1).trace = _
  simp [Block.enGroup_apply]

/-- The baseline group looks at the block and the prescaler alone. -/
theorem State.baseline_congr {s t : State} (hb : s.block = t.block) (hc : s.cfg = t.cfg) : s.baseline = t.baseline := by
  simp [State.baseline, hb, hc]

/-- When the fetch hands an instruction to the machine. -/
theorem fetch_eq_run {s s' : State} {i : Instr} (h : fetch s = .run i s') :
    ∃ w rest, s.inbox = .request w :: rest ∧ decode w = .ok i ∧ s' = { s with inbox := rest } := by
  unfold fetch at h
  split at h
  · cases h
  · rename_i w rest hin
    split at h
    · rename_i j hd
      cases h
      exact ⟨w, rest, hin, hd, rfl⟩
    · cases h
  · cases h
  · cases h

/-- When the fetch finds nothing. -/
theorem fetch_eq_idle {s : State} (h : fetch s = .idle) : s.inbox = [] := by
  unfold fetch at h
  split at h
  · assumption
  · split at h <;> cases h
  · cases h
  · cases h

end Sys2Proof.Machine
end

