-- ==== Sys2Proof/Laws/PerInstr.lean ====
section
/-! SUPPORT. Statements about every instruction as it is written: the word the encoder makes matches the instruction's
row of the opcode table (30_encoding.md R62; 40_divider_selector.md R81, R82). -/

namespace Sys2Proof.Laws.TableRow

/-- `match` and `mask` of a command's row, or `none` for a row of the selector. -/
def commandRow : Instr → Option (BitVec 128 × BitVec 128)
  | .init => some (0, 0xFFFFFFFFFFFFFFFFFFFFFFFFFFFFFFFF)
  | .setw _ _ _ _ => some (0x40000000000000000000000000000000, 0xFFFFFFFE000000000000000000000000)
  | .getf _ => some (0x80000000000000000000000000000000, 0xFFFFFFFF00000000FFFFFFFFFFFFFFFF)
  | .divsel1 => none
  | .divsel2 => none
  | .divsel4 => none
  | .divsel8 => none
  | .divsel16 => none
  | .divsel32 => none
  | .divsel40 => none
  | .divsel64 => none
  | .divselFallback _ => none

/-- The inputs that a row of the selector matches. -/
def selectorRow : Instr → U32 → Prop
  | .init, _ => False
  | .setw _ _ _ _, _ => False
  | .getf _, _ => False
  | .divsel1, p => p = 0x01
  | .divsel2, p => p = 0x02
  | .divsel4, p => p = 0x04
  | .divsel8, p => p = 0x08
  | .divsel16, p => p = 0x10
  | .divsel32, p => p = 0x20
  | .divsel40, p => p = 0x28
  | .divsel64, p => p = 0x40
  | .divselFallback _, p => p ∉ [(0x01 : U32), 0x02, 0x04, 0x08, 0x10, 0x20, 0x28, 0x40]

/-- A word matches the instruction's row. -/
def MatchesRow (i : Instr) : HostWord → Prop
  | .cmd w => ∃ m k, commandRow i = some (m, k) ∧ w &&& k = m
  | .psc p => selectorRow i p

/-- The encoder's word for a well-formed instruction matches its row. -/
def Statement (i : Instr) : Prop := i.wellFormed = true → MatchesRow i (encode i)

theorem init : Statement .init := fun _ => ⟨_, _, rfl, by decide⟩

theorem setw (channel period pulse : U32) (inv : Bool) : Statement (.setw channel period pulse inv) := by
  refine fun _ => ⟨_, _, rfl, ?_⟩
  apply BitVec.eq_of_getLsbD_eq
  intro i hi
  rw [BitVec.getLsbD_and, Command.word_getLsbD]
  interval_cases i <;> simp

theorem getf (channel : U32) : Statement (.getf channel) := by
  refine fun _ => ⟨_, _, rfl, ?_⟩
  apply BitVec.eq_of_getLsbD_eq
  intro i hi
  rw [BitVec.getLsbD_and, Command.word_getLsbD]
  interval_cases i <;> simp

theorem divsel1 : Statement .divsel1 := fun _ => rfl
theorem divsel2 : Statement .divsel2 := fun _ => rfl
theorem divsel4 : Statement .divsel4 := fun _ => rfl
theorem divsel8 : Statement .divsel8 := fun _ => rfl
theorem divsel16 : Statement .divsel16 := fun _ => rfl
theorem divsel32 : Statement .divsel32 := fun _ => rfl
theorem divsel40 : Statement .divsel40 := fun _ => rfl
theorem divsel64 : Statement .divsel64 := fun _ => rfl

theorem divselFallback (p : U32) : Statement (.divselFallback p) := by
  intro h
  simpa [Instr.wellFormed, recognizedSet, MatchesRow, encode, selectorRow] using h

end Sys2Proof.Laws.TableRow
end

