-- ==== Sys2Proof/Laws/Platform.lean ====
section
/-! SUPPORT. What a step of one instance of a platform can do. -/

namespace Sys2Proof.Machine

/-- A step of the instance at a place answers a next platform exactly when that instance's own step answers a next state,
which then stands at its place. -/
theorem Platform.stepAt_next_iff (p q : Platform) (k : Nat) :
    p.stepAt k = some (.next q) ↔ ∃ s t, p[k]? = some s ∧ step s = .next t ∧ q = p.set k t := by
  unfold Platform.stepAt
  cases p[k]? with
  | none => simp
  | some s => cases hs : step s <;> simp [eq_comm, hs]

/-- A step of the instance at a place is refused exactly when that instance's own step is. -/
theorem Platform.stepAt_refused_iff (p : Platform) (k : Nat) (r : Refusal) :
    p.stepAt k = some (.refused r) ↔ ∃ s, p[k]? = some s ∧ step s = .refused r := by
  unfold Platform.stepAt
  cases p[k]? with
  | none => simp
  | some s => cases hs : step s <;> simp [hs]

end Sys2Proof.Machine
end

