-- ==== Sys2Proof/Laws/Step.lean ====
section
/-! SUPPORT. Everything an instruction, and a step, can do when it answers a next state. -/

namespace Sys2Proof.Machine

/-- INIT goes on exactly in `UNINIT`. -/
theorem execInit_next_iff (s t : State) : execInit s = .next t ↔ s.phase = .uninit ∧ t = s.runInit := by
  unfold execInit
  cases s.phase <;> simp [eq_comm]

/-- SETW goes on exactly in `RUNNING`. -/
theorem execSetw_next_iff (channel period pulse : U32) (inv : Bool) (s t : State) :
    execSetw channel period pulse inv s = .next t ↔ s.phase = .running ∧ t = s.runSetw channel period pulse inv := by
  unfold execSetw
  cases s.phase <;> simp [eq_comm]

/-- When GETF goes on, and with what. -/
theorem execGetf_next_iff (channel : U32) (s t : State) :
    execGetf channel s = .next t ↔ s.phase = .running ∧
      ((s.channelInvalid channel = true ∧ t = s.raise .invalidChannel) ∨
       (s.channelInvalid channel = false ∧ s.cfg.prescaler ≠ 0 ∧ t = s.returnValue s.ticksPerSecond)) := by
  unfold execGetf
  cases s.phase with
  | uninit => simp
  | running =>
    cases hc : s.channelInvalid channel with
    | true => simpa using eq_comm
    | false =>
      by_cases hp : s.cfg.prescaler = 0
      · simp [hp]
      · have hp' : s.cfg.prescaler ≠ 0#32 := hp
        simpa [hp'] using eq_comm

/-- An evaluation of the selector always goes on. -/
theorem evalDivsel_next_iff (p : U32) (s t : State) : evalDivsel p s = .next t ↔ t = s.returnCode (divsel p) := by
  simp [evalDivsel, eq_comm]

/-- Everything an instruction can do when it answers a next state. -/
theorem exec_next_cases {i : Instr} {s t : State} (h : exec i s = .next t) :
    (i = .init ∧ s.phase = .uninit ∧ t = s.runInit) ∨
    (∃ channel period pulse inv, i = .setw channel period pulse inv ∧ s.phase = .running ∧
      t = s.runSetw channel period pulse inv) ∨
    (∃ channel, i = .getf channel ∧ s.phase = .running ∧
      ((s.channelInvalid channel = true ∧ t = s.raise .invalidChannel) ∨
       (s.channelInvalid channel = false ∧ s.cfg.prescaler ≠ 0 ∧ t = s.returnValue s.ticksPerSecond))) ∨
    ((∀ c p q v, i ≠ .setw c p q v) ∧ (∀ c, i ≠ .getf c) ∧ i ≠ .init ∧ ∃ p, t = s.returnCode (divsel p)) := by
  cases i with
  | init => exact .inl ⟨rfl, (execInit_next_iff s t).mp h⟩
  | setw c p q v => exact .inr (.inl ⟨c, p, q, v, rfl, (execSetw_next_iff c p q v s t).mp h⟩)
  | getf c => exact .inr (.inr (.inl ⟨c, rfl, (execGetf_next_iff c s t).mp h⟩))
  | divsel1 => exact .inr (.inr (.inr ⟨nofun, nofun, nofun, 1, (evalDivsel_next_iff _ s t).mp h⟩))
  | divsel2 => exact .inr (.inr (.inr ⟨nofun, nofun, nofun, 2, (evalDivsel_next_iff _ s t).mp h⟩))
  | divsel4 => exact .inr (.inr (.inr ⟨nofun, nofun, nofun, 4, (evalDivsel_next_iff _ s t).mp h⟩))
  | divsel8 => exact .inr (.inr (.inr ⟨nofun, nofun, nofun, 8, (evalDivsel_next_iff _ s t).mp h⟩))
  | divsel16 => exact .inr (.inr (.inr ⟨nofun, nofun, nofun, 16, (evalDivsel_next_iff _ s t).mp h⟩))
  | divsel32 => exact .inr (.inr (.inr ⟨nofun, nofun, nofun, 32, (evalDivsel_next_iff _ s t).mp h⟩))
  | divsel40 => exact .inr (.inr (.inr ⟨nofun, nofun, nofun, 40, (evalDivsel_next_iff _ s t).mp h⟩))
  | divsel64 => exact .inr (.inr (.inr ⟨nofun, nofun, nofun, 64, (evalDivsel_next_iff _ s t).mp h⟩))
  | divselFallback p => exact .inr (.inr (.inr ⟨nofun, nofun, nofun, p, (evalDivsel_next_iff _ s t).mp h⟩))

/-- INIT with the pin-mux answer `ok`. -/
theorem State.runInit_ok {s : State} (h : s.nextPinmux = .ok) : s.runInit = s.callCollaborators.bringUp.returnUnit := by
  simp [State.runInit, h]

/-- INIT with the pin-mux answer `fail(e)`. -/
theorem State.runInit_fail {s : State} {e : DepErr} (h : s.nextPinmux = .fail e) :
    s.runInit = s.callCollaborators.raise (.dependencyFailure e) := by
  simp [State.runInit, h]

/-- SETW with an invalid channel. -/
theorem State.runSetw_invalid {s : State} {channel : U32} (h : s.channelInvalid channel = true) (period pulse : U32)
    (inv : Bool) : s.runSetw channel period pulse inv = s.raise .invalidChannel := by
  simp [State.runSetw, h]

/-- SETW with a valid channel. -/
theorem State.runSetw_valid {s : State} {channel : U32} (h : s.channelInvalid channel = false) (period pulse : U32)
    (inv : Bool) :
    s.runSetw channel period pulse inv = (s.commit (s.waveformGroup period pulse inv)).returnUnit := by
  simp [State.runSetw, h]

/-- The channel test as a comparison of numbers. -/
theorem State.channelInvalid_eq_false_iff (s : State) (channel : U32) :
    s.channelInvalid channel = false ↔ channel.toNat < s.cfg.channels.toNat := by
  simp [State.channelInvalid, BitVec.ule]

/-- Everything a step can do when it answers a next state: it stands still, or it runs the request that stands next. -/
theorem step_next_cases {s t : State} (h : step s = .next t) :
    (s.inbox = [] ∧ t = s) ∨
    ∃ w rest i, s.inbox = .request w :: rest ∧ decode w = .ok i ∧ exec i { s with inbox := rest } = .next t := by
  unfold step at h
  split at h
  · rename_i hf
    cases h
    exact .inl ⟨fetch_eq_idle hf, rfl⟩
  · rename_i i s' hf
    obtain ⟨w, rest, hin, hd, rfl⟩ := fetch_eq_run hf
    exact .inr ⟨w, rest, i, hin, hd, h⟩
  · cases h

/-- What every step keeps: it is enough that the request leaving the interface, a new answer, the two ends of an INIT
and a commit of SETW keep it. -/
theorem step_keeps {P : State → Prop} (inbox : ∀ s x, P s → P { s with inbox := x })
    (answer : ∀ s a, P s → P { s with answer := a })
    (initOk : ∀ s, P s → s.phase = .uninit → s.nextPinmux = .ok → P s.callCollaborators.bringUp.returnUnit)
    (initFail : ∀ s e, P s → s.phase = .uninit → s.nextPinmux = .fail e → P s.callCollaborators)
    (commit : ∀ s period pulse inv, P s → s.phase = .running → P (s.commit (s.waveformGroup period pulse inv)))
    {s t : State} (hs : P s) (h : step s = .next t) : P t := by
  obtain ⟨-, rfl⟩ | ⟨w, rest, i, -, -, he⟩ := step_next_cases h
  · exact hs
  have h1 := inbox s rest hs
  generalize ({ s with inbox := rest } : State) = s1 at h1 he
  obtain ⟨-, hp, rfl⟩ | ⟨c, p, u, v, -, hp, rfl⟩ | ⟨c, -, -, ⟨-, rfl⟩ | ⟨-, -, rfl⟩⟩ | ⟨-, -, -, p, rfl⟩ :=
    exec_next_cases he
  · cases hx : s1.nextPinmux with
    | ok => rw [State.runInit_ok hx]; exact initOk s1 h1 hp hx
    | fail e => rw [State.runInit_fail hx]; exact answer _ _ (initFail s1 e h1 hp hx)
  · cases hc : s1.channelInvalid c with
    | true => rw [State.runSetw_invalid hc]; exact answer _ _ h1
    | false => rw [State.runSetw_valid hc]; exact answer _ _ (commit s1 p u v h1 hp)
  · exact answer _ _ h1
  · exact answer _ _ h1
  · exact answer _ _ h1

end Sys2Proof.Machine
end

