-- ==== Sys2Proof/Tests/Slice0.lean ====
section
/-! SUPPORT. Tests: words written out from 30_encoding.md and the opcode table, expected results from 95_test_vectors.md
(its vector is named at each test), and a witness for the hypotheses of each statement. -/

namespace Sys2Proof.Tests

open Sys2Proof Sys2Proof.Machine

/-! ### Well-formedness -/

/-- The one check: an input that another row matches is no operand of the fallback row. -/
theorem test_illformed_fallback : (Instr.divselFallback 40).wellFormed = false := by decide
theorem test_illformed_fallback_one : (Instr.divselFallback 1).wellFormed = false := by decide
theorem test_wellformed_fallback_zero : (Instr.divselFallback 0).wellFormed = true := by decide

/-! ### Decoding: each constructor from a word written out (W1 to W11; R81, R82), and the reserved words -/

theorem test_decode_init : decode (.ofWords 0x00000000 0x00000000 0x00000000 0x00000000) = .ok .init := by decide
theorem test_decode_setw :
    decode (.ofWords 0x40000001 0x00000001 0x000003E8 0x000000FA) = .ok (.setw 1 1000 250 true) := by decide
theorem test_decode_setw_all_ones : decode (.ofWords 0x40000001 0xFFFFFFFF 0xFFFFFFFF 0xFFFFFFFF) =
    .ok (.setw 0xFFFFFFFF 0xFFFFFFFF 0xFFFFFFFF true) := by decide
theorem test_decode_getf : decode (.ofWords 0x80000000 0x00000003 0x00000000 0x00000000) = .ok (.getf 3) := by decide
theorem test_decode_divsel1 : decode (.psc 0b1) = .ok .divsel1 := by decide
theorem test_decode_divsel2 : decode (.psc 0b10) = .ok .divsel2 := by decide
theorem test_decode_divsel4 : decode (.psc 0b100) = .ok .divsel4 := by decide
theorem test_decode_divsel8 : decode (.psc 0b1000) = .ok .divsel8 := by decide
theorem test_decode_divsel16 : decode (.psc 0b10000) = .ok .divsel16 := by decide
theorem test_decode_divsel32 : decode (.psc 0b100000) = .ok .divsel32 := by decide
theorem test_decode_divsel40 : decode (.psc 0b101000) = .ok .divsel40 := by decide
theorem test_decode_divsel64 : decode (.psc 0b1000000) = .ok .divsel64 := by decide
theorem test_decode_fallback : decode (.psc 0b10000000) = .ok (.divselFallback 128) := by decide
theorem test_reserved_op : decode (.ofWords 0xC0000000 0 0 0) = .error .reservedOp := by decide
theorem test_reserved_rsv : decode (.ofWords 0x40000002 0 0x3E8 0xFA) = .error .reservedBits := by decide
theorem test_reserved_init : decode (.ofWords 0 1 0 0) = .error .initOperand := by decide
theorem test_reserved_getf_inv : decode (.ofWords 0x80000001 0 0 0) = .error .getfOperand := by decide
theorem test_reserved_getf_pulse : decode (.ofWords 0x80000000 0 0 1) = .error .getfOperand := by decide
theorem test_encode_setw :
    encode (.setw 0 1000 250 false) = .ofWords 0x40000000 0x00000000 0x000003E8 0x000000FA := by decide
theorem test_table_numbering :
    decodeTableWord 128 0x4000000100000001000003E8000000FA = some (.setw 1 1000 250 true) := by decide
theorem test_table_numbering_selector : decodeTableWord 32 0x28 = some .divsel40 := by decide
theorem test_text_setw : commandText (.setw 0 1000 250 false) = some "SETW  0, 1000, 250, 0" := by decide

/-! ### Pure functions (DS, X, S, E, K vectors; the reference codes REF of decision D5 stand for the open parameter) -/

/-- The reference codes of D5: 0 to 7 in ascending order. -/
def refCode (r : Recognized) : BitVec 4 := BitVec.ofNat 4 r.index.val

theorem test_divsel_ref :
    [1, 2, 4, 8, 16, 32, 40, 64, 0, 3, 39, 41, 128, 0xFFFFFFFF].map (divselWith refCode) =
      [0, 1, 2, 3, 4, 5, 6, 7, 0, 0, 0, 0, 0, 0] := by decide
theorem test_divdec_ref :
    [(6 : BitVec 4), 0, 9, 15].map (divdecWith refCode) = [some 40, some 1, none, none] := by decide
theorem test_classify :
    classify 0 0 = .zero ∧ classify 0 7 = .zero ∧ classify 7 0 = .zero ∧ classify 1 1 = .full ∧ classify 1 2 = .general := by
  decide
theorem test_std_s2 : stdValues .zero 0 0 true = [.hcnt 0xFFFFFFFF, .lcnt 0] := by decide
theorem test_std_s11 : stdValues .general 1 2 false = [.hcnt 2, .lcnt 0xFFFFFFFF] := by decide
theorem test_std_s14 : stdValues .general 0xFFFFFFFF 0xFFFFFFFE true = [.hcnt 1, .lcnt 0xFFFFFFFE] := by decide
theorem test_stddec_k : stddec 0 0xFFFFFFFF false = some .zero ∧ stddec 0 0xFFFFFFFF true = some .full ∧
    stddec 750 250 true = some (.general 1000 250) ∧ stddec 2 0xFFFFFFFF false = some (.general 1 2) ∧
    stddec 1 0xFFFFFFFF false = none := by decide
theorem test_enhdec_k : enhdec 0xFFFFFFFE 0xFFFFFFFF = some .zero ∧ enhdec 1000 0 = some .full ∧
    enhdec 5 9 = some (.general 5 9) ∧ enhdec 0 9 = none ∧ enhdec 7 7 = none := by decide
theorem test_response_words : (Response.word ⟨.ok, 40000000⟩) = 0x00000000002625A00#66 ∧
    (Response.word ⟨.dependencyFailure, 0x16⟩) = 0x20000000000000016#66 := by decide

/-! ### States -/

/-- Registers of an Enhanced instance after INIT (vector I1). -/
def enhRegs : EnhRegs :=
  { clksrc := .internal40M, diven := 1, div := divsel 1, mode := .pwmManual, outen := 1, startpol := 0,
    maxcnt := 0xFFFFFFFF, cmp := 0, en := 1 }

/-- Registers of a Standard instance after INIT (vector I2). -/
def stdRegs : StdRegs :=
  { clksrc := .internal40M, diven := 1, div := divsel 8, mode := .userDefined, pwmen := 1, hcnt := 0,
    lcnt := 0xFFFFFFFF, en := 1 }

/-- An Enhanced instance at reset: four channels, prescaler 1; the pin-mux service will answer `ok`. -/
def enhFresh : State := { State.resetWith 0 true ⟨0, 4, 1, 7⟩ with pinmux := [.ok] }
/-- A Standard instance at reset: four channels, prescaler 8. -/
def stdFresh : State := { State.resetWith 1 false ⟨0, 4, 8, 7⟩ with pinmux := [.ok] }
/-- `stdFresh` whose pin-mux call will fail with the given error, then succeed. -/
def stdFailingWith (e : DepErr) : State := { stdFresh with pinmux := [.fail e, .ok] }
/-- An error the pin-mux service can have. -/
def someErr : DepErr := ⟨Config.depErrFirst, by simp [Config.isDepErr]⟩
/-- `stdFresh` whose pin-mux call will fail, then succeed. -/
def stdFailing : State := stdFailingWith someErr
/-- `enhFresh` after INIT, but for its history. -/
def enhRunning : State := { enhFresh with phase := .running, clkHz := 40000000, block := .enh enhRegs }
/-- `stdFresh` after INIT, but for its history. -/
def stdRunning : State := { stdFresh with phase := .running, clkHz := 40000000, block := .std stdRegs }

/-- What `f` reads from the next state, if there is one. -/
def see {α : Type} (o : Host.Outcome State Fault Refusal) (f : State → α) : Option α :=
  match o with
  | .next s => some (f s)
  | .fault _ => none
  | .refused _ => none

/-! ### One step of each command -/

/-- I1: the count fields, the enable and the phase after INIT. -/
theorem test_init_i1 : see (exec .init enhFresh) (fun t => (t.block.x 6, t.block.x 7, t.block.x 8, t.phase)) =
    some (some (.count 0xFFFFFFFF), some (.count 0), some (.bit 1), .running) := by decide
/-- I3, P4 command 1: a failed INIT, where 0x16 is an error the pin-mux service can have. -/
theorem test_init_i3 (h : Config.isDepErr 0x16 = true) :
    see (exec .init (stdFailingWith ⟨0x16, h⟩)) (fun t => (t.phase, t.block.en, t.answer, t.trace)) =
      some (.uninit, 0, some (.rsp ⟨.dependencyFailure, 0x16⟩), [.clkgate 7, .pinmux (.fail ⟨0x16, h⟩)]) := rfl
/-- S16: the boundary channel. -/
theorem test_setw_s16 : see (exec (.setw 4 1000 250 false) stdRunning) (fun t => (t.answer, t.trace, t.block.x 5)) =
    some (some (.rsp ⟨.invalidChannel, 0⟩), [], some (.count 0)) := by decide
/-- E6: max-count, compare-count and start polarity of an inverted request. -/
theorem test_setw_e6 :
    see (exec (.setw 0 1000 250 true) enhRunning) (fun t => (t.block.x 5, t.block.x 6, t.block.x 7, t.trace)) =
      some (some (.bit 1), some (.count 1000), some (.count 250),
        [.wg (.enh [.en 0]), .wg (.enh [.startpol 1, .maxcnt 1000, .cmp 250]), .wg (.enh [.en 1])]) := by decide
/-- F9: truncation at prescaler 3. -/
theorem test_getf_f9 :
    see (exec (.getf 0) { stdRunning with cfg := ⟨0, 4, 3, 7⟩ }) (fun t => t.answer) =
      some (some (.rsp ⟨.ok, 13333333⟩)) := by decide
/-- F16: the channel test precedes the zero test. -/
theorem test_getf_f16 :
    see (exec (.getf 4) { stdRunning with cfg := ⟨0, 4, 0, 7⟩ }) (fun t => t.answer) =
      some (some (.rsp ⟨.invalidChannel, 0⟩)) := by decide
/-- R41: the compare-count as 32 bits at its offset from BASE. -/
theorem test_access_cmp :
    ({ enhRunning with cfg := ⟨0x1000, 4, 1, 7⟩ } : State).groupAccesses (.enh [.cmp 250]) =
      [⟨0x1000 + (Config.regLayout.enh 7).offset, (Config.regLayout.enh 7).bit, 32, 250⟩] := rfl
/-- DS7 and the purity of a selector row. -/
theorem test_divsel40 : see (exec .divsel40 enhFresh) (fun t => (t.trace, t.draws, t.phase)) = some ([], 0, .uninit) := by
  decide

/-! ### Witnesses: for each statement with hypotheses, states and operands that meet them together -/

/-- `enhFresh` asked for INIT. -/
def enhAsked : State := { enhFresh with inbox := [.request (.ofWords 0 0 0 0)] }
/-- `enhRunning` asked for an inverted SETW. -/
def enhAskedSetw : State := { enhRunning with inbox := [.request (.ofWords 0x40000001 0 0x3E8 0xFA)] }
/-- `stdRunning` asked for a SETW in the FULL class. -/
def stdAskedSetw : State := { stdRunning with inbox := [.request (.ofWords 0x40000000 3 0x3E8 0x3E8)] }

/-- A step of `enhAsked` runs INIT. -/
theorem step_enhAsked : step enhAsked = exec .init { enhAsked with inbox := [] } := by
  have h : decode (.ofWords 0 0 0 0) = .ok .init := by decide
  simp only [step, fetch, enhAsked, h]

/-- A step of `enhAskedSetw` runs SETW. -/
theorem step_enhAskedSetw : step enhAskedSetw = exec (.setw 0 1000 250 true) { enhAskedSetw with inbox := [] } := by
  have h : decode (.ofWords 0x40000001 0 0x3E8 0xFA) = .ok (.setw 0 1000 250 true) := by decide
  simp only [step, fetch, enhAskedSetw, h]

/-- A step of `stdAskedSetw` runs SETW. -/
theorem step_stdAskedSetw : step stdAskedSetw = exec (.setw 3 1000 1000 false) { stdAskedSetw with inbox := [] } := by
  have h : decode (.ofWords 0x40000000 3 0x3E8 0x3E8) = .ok (.setw 3 1000 1000 false) := by decide
  simp only [step, fetch, stdAskedSetw, h]

theorem witness_DecodeOfEncode : (Instr.divselFallback 0xFFFFFFFF).wellFormed = true := by decide
theorem witness_EncodeOfDecode :
    decode (.ofWords 0x40000001 0xFFFFFFFF 0xFFFFFFFF 0xFFFFFFFF) =
      .ok (.setw 0xFFFFFFFF 0xFFFFFFFF 0xFFFFFFFF true) := by decide
theorem witness_OperandsAreFields :
    (∃ w, decode (.cmd w) = .ok (.setw 0 0xFFFFFFFF 1 true)) ∧ ∃ w, decode (.cmd w) = .ok (.getf 0xFFFFFFFF) :=
  ⟨⟨0x4000000100000000FFFFFFFF00000001, by decide⟩, 0x80000000FFFFFFFF0000000000000000, by decide⟩
theorem witness_StepRunsDecoded :
    (enhAsked.inbox = .request (.ofWords 0 0 0 0) :: [] ∧ decode (.ofWords 0 0 0 0) = .ok .init) ∧ enhFresh.inbox = [] :=
  ⟨⟨rfl, by decide⟩, rfl⟩
theorem witness_PlacedWordRuns : decodeTableWord 32 0 = some (.divselFallback 0) ∧ decodeTableWord 128 0 = some .init := by
  decide
theorem witness_DivselTable : (0xFFFFFFFF : U32) ∉ [(1 : U32), 2, 4, 8, 16, 32, 40, 64] := by decide
theorem witness_DivselRows : (128 : U32) ∉ [(1 : U32), 2, 4, 8, 16, 32, 40, 64] ∧
    (0 : U32) ∉ [(1 : U32), 2, 4, 8, 16, 32, 40, 64] := by decide
theorem witness_DivselPure :
    ({ enhRunning with inbox := [.request (.psc 0)] } : State).inbox = .request (.psc 0) :: [] := rfl
theorem witness_DivselInjective : (1 : U32) ∈ recognizedSet ∧ (40 : U32) ∈ recognizedSet ∧ divsel 1 = divsel 1 :=
  ⟨by decide, by decide, rfl⟩
theorem witness_DivdecLaws : (64 : U32) ∈ recognizedSet ∧ (0 : U32) ∉ recognizedSet ∧
    divdec (Config.divCode .p1) = some 1 ∧ ∃ p, divsel p = Config.divCode .p64 :=
  ⟨by decide, by decide, by simp [divdec, divdecWith], 64, rfl⟩
theorem witness_InitEnhanced : enhFresh.phase = .uninit ∧ enhFresh.block = .enh (EnhRegs.reset 0) ∧ enhFresh.nextPinmux = .ok :=
  ⟨rfl, rfl, rfl⟩
theorem witness_InitStandard : stdFresh.phase = .uninit ∧ stdFresh.block = .std (StdRegs.reset 1) ∧ stdFresh.nextPinmux = .ok :=
  ⟨rfl, rfl, rfl⟩
theorem witness_DependencyFailure :
    (stdFailing.phase = .uninit ∧ stdFailing.nextPinmux = .fail someErr) ∧
    ∃ t, exec .init stdFailing = .next t ∧ t.answer = some (.rsp ⟨.dependencyFailure, someErr.val⟩) :=
  ⟨⟨rfl, rfl⟩, _, rfl, rfl⟩
theorem witness_InitRetry :
    ∃ t, exec .init stdFailing = .next t ∧ t.answer = some (.rsp ⟨.dependencyFailure, someErr.val⟩) ∧ t.nextPinmux = .ok :=
  ⟨_, rfl, rfl, rfl⟩
theorem witness_SetwEnhancedZero :
    enhRunning.phase = .running ∧ enhRunning.block = .enh enhRegs ∧ (3 : U32).toNat < enhRunning.cfg.channels.toNat ∧
    ((0 : U32) = 0 ∨ (0 : U32) = 0) := ⟨rfl, rfl, by decide, .inl rfl⟩
theorem witness_SetwEnhancedFull :
    enhRunning.phase = .running ∧ enhRunning.block = .enh enhRegs ∧ (0 : U32).toNat < enhRunning.cfg.channels.toNat ∧
    (0xFFFFFFFF : U32) ≠ 0 := ⟨rfl, rfl, by decide, by decide⟩
theorem witness_SetwEnhancedGeneral :
    enhRunning.phase = .running ∧ enhRunning.block = .enh enhRegs ∧ (3 : U32).toNat < enhRunning.cfg.channels.toNat ∧
    (0xFFFFFFFE : U32) ≠ 0 ∧ (0xFFFFFFFF : U32) ≠ 0 ∧ (0xFFFFFFFE : U32) ≠ 0xFFFFFFFF :=
  ⟨rfl, rfl, by decide, by decide, by decide, by decide⟩
theorem witness_SetwEnhancedCounts :
    enhRunning.phase = .running ∧ enhRunning.block = .enh enhRegs ∧ (3 : U32).toNat < enhRunning.cfg.channels.toNat ∧
    classify 0 0xFFFFFFFF = .zero ∧ classify 0xFFFFFFFE 0xFFFFFFFF = .general := ⟨rfl, rfl, by decide, by decide, by decide⟩
theorem witness_SetwStandardBoundary :
    stdRunning.phase = .running ∧ stdRunning.block = .std stdRegs ∧ (3 : U32).toNat < stdRunning.cfg.channels.toNat ∧
    ((0 : U32) = 0 ∨ (5 : U32) = 0) ∧ (¬((1 : U32) = 0 ∨ (1 : U32) = 0) ∧ (1 : U32) = 1) :=
  ⟨rfl, rfl, by decide, .inl rfl, by decide, rfl⟩
theorem witness_SetwStandardGeneral :
    stdRunning.phase = .running ∧ stdRunning.block = .std stdRegs ∧ (0 : U32).toNat < stdRunning.cfg.channels.toNat ∧
    (1 : U32) ≠ 0 ∧ (2 : U32) ≠ 0 ∧ (1 : U32) ≠ 2 := ⟨rfl, rfl, by decide, by decide, by decide, by decide⟩
theorem witness_SetwInvalidChannel :
    (stdRunning.phase = .running ∧ stdRunning.cfg.channels.toNat ≤ (4 : U32).toNat) ∧
    ∃ t, exec (.setw 3 1000 250 false) stdRunning = .next t ∧ (3 : U32).toNat < stdRunning.cfg.channels.toNat :=
  ⟨⟨rfl, by decide⟩, _, rfl, by decide⟩
theorem witness_SetwWritesItsGroup :
    enhRunning.phase = .running ∧ (3 : U32).toNat < enhRunning.cfg.channels.toNat ∧
    (6, FieldValue.count 1000) ∈ (enhRunning.waveformGroup 1000 250 false).pairs ∧
    5 ∉ (enhRunning.waveformGroup 1000 250 false).numbers ∧ 5 ∉ (enhRunning.block.enGroup 0).numbers :=
  ⟨rfl, by decide, by decide, by decide, by decide⟩
theorem witness_SetwChannelIrrelevant :
    (0 : U32).toNat < stdRunning.cfg.channels.toNat ∧ (3 : U32).toNat < stdRunning.cfg.channels.toNat := by decide
theorem witness_StandardCountsSum :
    stdRunning.phase = .running ∧ stdRunning.block = .std stdRegs ∧ (0 : U32).toNat < stdRunning.cfg.channels.toNat ∧
    0 < (0xFFFFFFFE : U32).toNat ∧ (0xFFFFFFFE : U32).toNat < (0xFFFFFFFF : U32).toNat :=
  ⟨rfl, rfl, by decide, by decide, by decide⟩
theorem witness_StandardPolaritySwap :
    stdRunning.phase = .running ∧ stdRunning.block = .std stdRegs ∧ (3 : U32).toNat < stdRunning.cfg.channels.toNat :=
  ⟨rfl, rfl, by decide⟩
theorem witness_BoundaryIgnoresCounts : (1 : U32) ≠ 0 ∧ (0xEE6B2800 : U32) ≠ 0 := by decide
theorem witness_GroupOrderIrrelevant :
    (([.startpol 1, .cmp 0] : List EnhWrite).map EnhWrite.number).Nodup ∧
    ([.startpol 1, .cmp 0] : List EnhWrite).Perm [.cmp 0, .startpol 1] ∧
    (([.hcnt 1, .lcnt 0] : List StdWrite).map StdWrite.number).Nodup ∧
    ([.hcnt 1, .lcnt 0] : List StdWrite).Perm [.lcnt 0, .hcnt 1] :=
  ⟨by decide, .swap _ _ _, by decide, .swap _ _ _⟩
theorem witness_GroupAtItsPlaces :
    stdRunning.block = .std stdRegs ∧ enhRunning.block = .enh enhRegs ∧
    ([EnhWrite.startpol 1, .maxcnt 1000, .cmp 250].map EnhWrite.number).Nodup ∧
    ([StdWrite.hcnt 250, .lcnt 750].map StdWrite.number).Nodup ∧
    5 ∈ [EnhWrite.startpol 1, .maxcnt 1000, .cmp 250].map EnhWrite.number ∧
    8 ∉ [EnhWrite.startpol 1, .maxcnt 1000, .cmp 250].map EnhWrite.number :=
  ⟨rfl, rfl, by decide, by decide, by decide, by decide⟩
theorem witness_StddecOfStdValues :
    stdValues (classify 1 2) 1 2 true = [.hcnt 0xFFFFFFFF, .lcnt 2] := by decide
theorem witness_StddecImages : stddec 2 0xFFFFFFFF false = some (.general 1 2) ∧ stddec 0 5 false = none ∧
    stddec 5 0 false = none ∧ stddec 1 0xFFFFFFFF false = none := by decide
theorem witness_EnhdecAfterSetw :
    enhRunning.phase = .running ∧ enhRunning.block = .enh enhRegs ∧ (3 : U32).toNat < enhRunning.cfg.channels.toNat :=
  ⟨rfl, rfl, by decide⟩
theorem witness_GetfQuotient :
    stdRunning.phase = .running ∧ (3 : U32).toNat < stdRunning.cfg.channels.toNat ∧ stdRunning.cfg.prescaler ≠ 0 :=
  ⟨rfl, by decide, by decide⟩
theorem witness_RecognizedRateExact :
    stdRunning.RunningConfigured ∧ stdRunning.phase = .running ∧ (3 : U32).toNat < stdRunning.cfg.channels.toNat ∧
    stdRunning.cfg.prescaler ∈ recognizedSet :=
  ⟨fun _ => ⟨rfl, rfl, rfl, rfl, rfl, rfl⟩, rfl, by decide, by decide⟩

/-- A Standard instance with the unrecognized prescaler 3, after INIT (program P4). -/
def stdOdd : State :=
  { stdRunning with cfg := ⟨0, 4, 3, 7⟩, block := .std { stdRegs with div := divsel 3 } }

theorem witness_UnrecognizedRateDiffers :
    stdOdd.RunningConfigured ∧ stdOdd.phase = .running ∧ (3 : U32).toNat < stdOdd.cfg.channels.toNat ∧
    stdOdd.cfg.prescaler ∉ recognizedSet ∧ stdOdd.cfg.prescaler ≠ 0 :=
  ⟨fun _ => ⟨rfl, rfl, rfl, rfl, rfl, rfl⟩, rfl, by decide, by decide, by decide⟩
theorem witness_GetfTransparent : ∃ t, exec (.getf 4) stdRunning = .next t := ⟨_, rfl⟩
theorem witness_InvalidChannelError :
    (stdRunning.phase = .running ∧ stdRunning.cfg.channels.toNat ≤ (4 : U32).toNat) ∧
    ∃ t, exec (.getf 4) stdRunning = .next t ∧ t.answer = some (.rsp ⟨.invalidChannel, 0⟩) :=
  ⟨⟨rfl, by decide⟩, _, rfl, rfl⟩
theorem witness_ErrorsArePrecise :
    (∃ t, exec (.setw 4 0 0 true) enhRunning = .next t ∧ t.answer = some (.rsp ⟨.invalidChannel, 0⟩)) ∧
    (∃ t, exec .init stdFailing = .next t ∧ t.answer = some (.rsp ⟨.dependencyFailure, someErr.val⟩)) ∧
    Status.invalidChannel ≠ .ok ∧ Status.dependencyFailure ≠ .ok :=
  ⟨⟨_, rfl, rfl⟩, ⟨_, rfl, rfl⟩, by decide, by decide⟩
theorem witness_AcceptedRequestsAnswer : (∃ t, exec .divsel64 enhFresh = .next t) ∧ ∃ t, exec (.getf 0) stdRunning = .next t :=
  ⟨⟨_, rfl⟩, _, rfl⟩
theorem witness_ResponseWord : (Response.word ⟨.ok, 7⟩) = Response.word ⟨.ok, 7⟩ := rfl
theorem witness_PhaseNeverReturns : ∃ t, step enhAsked = .next t ∧ enhAsked.phase ≠ t.phase :=
  ⟨_, step_enhAsked.trans rfl, by decide⟩
theorem witness_ConfigurationFixed : ∃ t, step enhAskedSetw = .next t := ⟨_, step_enhAskedSetw.trans rfl⟩
theorem witness_TraceOnlyGrows : (∃ t, step enhAsked = .next t) ∧ ∃ t, step stdAskedSetw = .next t :=
  ⟨⟨_, step_enhAsked.trans rfl⟩, _, step_stdAskedSetw.trans rfl⟩
theorem witness_ClkHzWrittenOnlyByInit :
    (enhFresh.phase = .uninit ∧ enhFresh.nextPinmux = .ok) ∧ ∃ t, step enhAsked = .next t :=
  ⟨⟨rfl, rfl⟩, _, step_enhAsked.trans rfl⟩
theorem witness_StartPolWriters :
    ∃ t r', step enhAskedSetw = .next t ∧ enhAskedSetw.block = .enh enhRegs ∧ t.block = .enh r' ∧
      r'.startpol ≠ enhRegs.startpol ∧ enhAskedSetw.phase = .running :=
  ⟨_, _, step_enhAskedSetw.trans rfl, rfl, rfl, by decide, rfl⟩

/-- `enhAskedSetw` after an earlier inverted request, asked for one that is not inverted (vector E13). -/
def enhSticky : State :=
  { enhRunning with
    block := .enh { enhRegs with startpol := 1 }
    inbox := [.request (.ofWords 0x40000000 0 0x3E8 0xFA)] }

/-- A step of `enhSticky` runs SETW. -/
theorem step_enhSticky : step enhSticky = exec (.setw 0 1000 250 false) { enhSticky with inbox := [] } := by
  have h : decode (.ofWords 0x40000000 0 0x3E8 0xFA) = .ok (.setw 0 1000 250 false) := by decide
  simp only [step, fetch, enhSticky, h]

theorem witness_StartPolWriters_sticky :
    ∃ t r', step enhSticky = .next t ∧ enhSticky.block = .enh { enhRegs with startpol := 1 } ∧ t.block = .enh r' ∧
      enhSticky.phase = .running := ⟨_, _, step_enhSticky.trans rfl, rfl, rfl, rfl⟩
theorem witness_RegistersDoNotInfluence :
    ({ enhAskedSetw with block := .enh (EnhRegs.reset 0) } : State).isEnhanced = enhAskedSetw.isEnhanced ∧
    ∃ t, step enhAskedSetw = .next t := ⟨rfl, _, step_enhAskedSetw.trans rfl⟩
theorem witness_StepKeepsRunningConfigured : stdAskedSetw.RunningConfigured ∧ ∃ t, step stdAskedSetw = .next t :=
  ⟨fun _ => ⟨rfl, rfl, rfl, rfl, rfl, rfl⟩, _, step_stdAskedSetw.trans rfl⟩
theorem witness_StepKeepsCommitDiscipline :
    (enhAsked.FollowsTrace (.enh (EnhRegs.reset 0)) ∧ enhAsked.EnabledByPhase ∧ ∃ t, step enhAsked = .next t) ∧
    (enhAskedSetw.FollowsTrace (.enh enhRegs) ∧ enhAskedSetw.EnabledByPhase ∧ ∃ t, step enhAskedSetw = .next t) :=
  ⟨⟨⟨rfl, trivial⟩, ⟨fun _ => rfl, nofun⟩, _, step_enhAsked.trans rfl⟩,
   ⟨⟨rfl, trivial⟩, ⟨nofun, fun _ => rfl⟩, _, step_enhAskedSetw.trans rfl⟩⟩
theorem witness_StepKeepsCountsDecode : stdAskedSetw.CountsDecode ∧ ∃ t, step stdAskedSetw = .next t :=
  ⟨fun _ => ⟨by decide, by decide⟩, _, step_stdAskedSetw.trans rfl⟩
theorem witness_StepKeepsStartPolRecorded : enhAskedSetw.StartPolRecorded ∧ ∃ t, step enhAskedSetw = .next t := by
  refine ⟨⟨nofun, fun _ r h => ?_⟩, _, step_enhAskedSetw.trans rfl⟩
  cases h
  rfl

/-- Two instances, the first asked for INIT and the second for a SETW. -/
def twoAsked : Platform := [enhAsked, stdAskedSetw]
theorem witness_InstancesIndependent :
    twoAsked[0]? = some enhAsked ∧ (∃ t, step enhAsked = .next t) ∧
    (∃ q, twoAsked.stepAt 0 = some (.next q)) ∧ ∃ u, twoAsked.stepAt 1 = some (.next u) :=
  ⟨rfl, ⟨_, step_enhAsked.trans rfl⟩,
   ⟨_, (Platform.stepAt_next_iff _ _ _).mpr ⟨_, _, rfl, step_enhAsked.trans rfl, rfl⟩⟩,
   _, (Platform.stepAt_next_iff _ _ _).mpr ⟨_, _, rfl, step_stdAskedSetw.trans rfl, rfl⟩⟩
theorem witness_InstancesDrawApart :
    (Platform.reset [(true, ⟨0, 4, 1, 7⟩), (false, ⟨0, 4, 8, 7⟩)])[1]? = some (State.resetWith 1 false ⟨0, 4, 8, 7⟩) ∧
    (twoAsked.Distinct ∧ ∃ q, twoAsked.stepAt 0 = some (.next q)) ∧ State.reset.pinmux = [] :=
  ⟨rfl, ⟨show [0, 1].Nodup by decide, witness_InstancesIndependent.2.2.1⟩, rfl⟩

end Sys2Proof.Tests
end

section
/-! PROOFS. The commit protocol as one state (20_memory.md R46). -/

namespace Sys2Proof.Machine

/-- A commit writes the block and the trace and nothing else: its three groups, applied and recorded in order. -/
theorem State.commit_eq (s : State) (g : WriteGroup) :
    s.commit g = { s with
      block := ((s.block.apply (s.block.enGroup 0)).apply g).apply (s.block.enGroup 1)
      trace := s.trace ++ [.wg (s.block.enGroup 0), .wg g, .wg (s.block.enGroup 1)] } := by
  have frame : s.commit g = { s with block := (s.commit g).block, trace := (s.commit g).trace } := rfl
  rw [frame, State.commit_block, State.commit_trace, List.append_assoc, List.append_assoc]
  rfl

/-- The last group of a commit sets `EN`, whatever the middle group wrote. -/
@[simp] theorem State.commit_en (s : State) (g : WriteGroup) : (s.commit g).block.en = 1 := by
  have sameGroup : ((s.block.apply (s.block.enGroup 0)).apply g).enGroup 1 = s.block.enGroup 1 := by
    rw [Block.enGroup_apply, Block.enGroup_apply]
  rw [State.commit_block, ← sameGroup, Block.en_apply_enGroup]

/-- Settles O31: the commit as one state, with what its first and its last group make of `EN`. -/
theorem commitThreeGroups : Obligations.CommitThreeGroups := fun s V =>
  ⟨s.commit_eq V, s.block.en_apply_enGroup 0, s.commit_en V⟩

end Sys2Proof.Machine
end

section
/-! PROOFS. What the divider selector computes, on the recognized prescalers and on all others (R81, R82). -/

namespace Sys2Proof.Machine

/-- R81: a recognized prescaler has its own code. -/
@[simp] theorem divsel_prescalerOf (r : Recognized) : divsel (prescalerOf r) = Config.divCode r := by
  cases r <;> rfl

/-- R82: every other input has the divide-by-1 code. -/
theorem divsel_of_not_mem_recognizedSet {p : U32} (h : p ∉ recognizedSet) : divsel p = Config.divCode .p1 := by
  simp only [recognizedSet, List.mem_cons, List.not_mem_nil, or_false, not_or] at h
  simp only [divsel, divselWith, h, if_false]

/-- Settles O9: the selector at the eight recognized prescalers, and its fallback to the code of a genuine 1. -/
theorem divselTable : Obligations.DivselTable := by
  refine ⟨divsel_prescalerOf .p1, divsel_prescalerOf .p2, divsel_prescalerOf .p4, divsel_prescalerOf .p8,
    divsel_prescalerOf .p16, divsel_prescalerOf .p32, divsel_prescalerOf .p40, divsel_prescalerOf .p64,
    fun p unrecognized => ?_⟩
  have fallback : divsel p = Config.divCode .p1 := divsel_of_not_mem_recognizedSet unrecognized
  exact ⟨fallback, fallback.trans (divsel_prescalerOf .p1).symm⟩

end Sys2Proof.Machine
end

section
/-! PROOFS. Who writes `CLK_HZ` (41_initialize.md R104). -/

namespace Sys2Proof.Machine

/-- What `CLK_HZ` can be in `t` when one step leads there from `s`: kept, in the same phase, or written by the INIT that
brought the driver up. The phase is part of the first case so that an INIT is known to start from the `UNINIT` of `s`. -/
def State.ClkHzKeptOrWritten (s t : State) : Prop :=
  (t.clkHz = s.clkHz ∧ t.phase = s.phase) ∨ (s.phase = .uninit ∧ t.phase = .running ∧ t.clkHz = clkHzConst)

/-- An INIT in `UNINIT` with the pin-mux answer `ok` goes on, by the bring-up. -/
theorem exec_init_ok {s : State} (uninit : s.phase = .uninit) (ok : s.nextPinmux = .ok) :
    exec .init s = .next s.callCollaborators.bringUp.returnUnit :=
  (execInit_next_iff s _).mpr ⟨uninit, (State.runInit_ok ok).symm⟩

/-- Of all that a step does, only the bring-up of an INIT writes `CLK_HZ`. -/
theorem step_clkHzKeptOrWritten {s t : State} (h : step s = .next t) : s.ClkHzKeptOrWritten t := by
  refine step_keeps (P := s.ClkHzKeptOrWritten) (inbox := fun _ _ kept => kept) (answer := fun _ _ kept => kept)
    (initOk := ?initOk) (initFail := fun _ _ kept _ _ => kept) (commit := fun _ _ _ _ kept _ => kept)
    (.inl ⟨rfl, rfl⟩) h
  case initOk =>
    rintro u (⟨-, samePhase⟩ | ⟨-, running, -⟩) uninit -
    · exact .inr ⟨samePhase.symm.trans uninit, rfl, rfl⟩
    · exact absurd (running.symm.trans uninit) nofun

/-- Settles O47: the bring-up writes `CLK_HZ_CONST`, and a step that is no bring-up keeps `CLK_HZ`. -/
theorem clkHzWrittenOnlyByInit : Obligations.ClkHzWrittenOnlyByInit :=
  ⟨fun _ uninit ok => ⟨_, exec_init_ok uninit ok, rfl, rfl⟩,
   fun _ _ h => (step_clkHzKeptOrWritten h).imp_left And.left⟩

end Sys2Proof.Machine
end

section
/-! PROOFS. What a write group leaves in the fields, read by number (20_memory.md R43). -/

namespace Sys2Proof.Machine

/-! A register block of either variant is written field by field, and its fields are read by number. Both variants obey
the two laws `same` and `other`; what a list of writes does follows from these alone. -/

section
variable {R W : Type} {write : R → W → R} {read : R → Nat → Option FieldValue} {number : W → Nat} {value : W → FieldValue}

/-- A field that no write of the list names keeps its value. -/
theorem read_foldl_of_not_mem (other : ∀ r w n, n ≠ number w → read (write r w) n = read r n) {n : Nat} :
    ∀ (ws : List W) (r : R), n ∉ ws.map number → read (ws.foldl write r) n = read r n
  | [], _, _ => rfl
  | w :: ws, r, unnamed => by
    obtain ⟨ne, rest⟩ := List.ne_and_not_mem_of_not_mem_cons unnamed
    exact (read_foldl_of_not_mem other ws (write r w) rest).trans (other r w n ne)

/-- When no field is named twice, every named field takes its value: the writes after its own leave it. -/
theorem read_foldl_of_mem (same : ∀ r w, read (write r w) (number w) = some (value w))
    (other : ∀ r w n, n ≠ number w → read (write r w) n = read r n) {w : W} :
    ∀ (ws : List W) (r : R), (ws.map number).Nodup → w ∈ ws → read (ws.foldl write r) (number w) = some (value w)
  | v :: ws, r, once, named => by
    obtain ⟨unnamed, rest⟩ := List.nodup_cons.mp once
    obtain rfl | later := List.mem_cons.mp named
    · exact (read_foldl_of_not_mem other ws (write r w) unnamed).trans (same r w)
    · exact read_foldl_of_mem same other ws (write r v) rest later

end

/-- A group leaves every field that it does not name. -/
theorem Block.x_apply_of_not_mem (b : Block) (g : WriteGroup) {n : Nat} (unnamed : n ∉ g.numbers) :
    (b.apply g).x n = b.x n := by
  cases b <;> cases g
  case enh.enh r ws => exact read_foldl_of_not_mem EnhRegs.x_write_of_ne ws r unnamed
  case std.std r ws => exact read_foldl_of_not_mem StdRegs.x_write_of_ne ws r unnamed
  case enh.std => rfl
  case std.enh => rfl

/-- The group's writes are of the block's variant, as those of every group that a rule makes are (R2). -/
def Block.Fits : Block → WriteGroup → Prop
  | .enh _, .enh _ => True
  | .std _, .std _ => True
  | .enh _, .std _ => False
  | .std _, .enh _ => False

/-- No group changes the variant, so what fits before it fits after it. -/
theorem Block.fits_apply (b : Block) (g v : WriteGroup) : (b.apply g).Fits v ↔ b.Fits v := by
  cases b <;> cases g <;> cases v <;> exact Iff.rfl

/-- A group of the block's variant that names no field twice gives each named field its value. -/
theorem Block.x_apply_of_mem {b : Block} {g : WriteGroup} (fits : b.Fits g) (once : g.numbers.Nodup)
    {nv : Nat × FieldValue} (named : nv ∈ g.pairs) : (b.apply g).x nv.1 = some nv.2 := by
  cases b <;> cases g
  case enh.enh r ws =>
    obtain ⟨w, mem, rfl⟩ := List.mem_map.mp named
    exact read_foldl_of_mem EnhRegs.x_write_number EnhRegs.x_write_of_ne ws r once mem
  case std.std r ws =>
    obtain ⟨w, mem, rfl⟩ := List.mem_map.mp named
    exact read_foldl_of_mem StdRegs.x_write_number StdRegs.x_write_of_ne ws r once mem
  case enh.std => exact fits.elim
  case std.enh => exact fits.elim

/-- A field that a group gives a value is one that it names. -/
theorem WriteGroup.fst_mem_numbers {g : WriteGroup} {nv : Nat × FieldValue} (named : nv ∈ g.pairs) : nv.1 ∈ g.numbers := by
  cases g <;>
  · obtain ⟨w, mem, rfl⟩ := List.mem_map.mp named
    exact List.mem_map_of_mem mem

/-- Which field the enable group names does not depend on the bit it writes. -/
theorem Block.numbers_enGroup (b : Block) (v w : Bit) : (b.enGroup v).numbers = (b.enGroup w).numbers := by
  cases b <;> rfl

/-- After a commit, a field that neither its value group nor the enable groups name is as it was. -/
theorem State.commit_x_of_not_mem (s : State) {g : WriteGroup} {n : Nat} (unnamed : n ∉ g.numbers)
    (notEn : n ∉ (s.block.enGroup 0).numbers) : (s.commit g).block.x n = s.block.x n := by
  have notEn' : n ∉ (s.block.enGroup 1).numbers := s.block.numbers_enGroup 0 1 ▸ notEn
  rw [State.commit_block, Block.x_apply_of_not_mem _ _ notEn', Block.x_apply_of_not_mem _ _ unnamed,
    Block.x_apply_of_not_mem _ _ notEn]

/-- After a commit, each field of its value group has its new value: the re-enable does not touch it. -/
theorem State.commit_x_of_mem {s : State} {g : WriteGroup} (fits : s.block.Fits g)
    (once : (g.numbers ++ (s.block.enGroup 1).numbers).Nodup) {nv : Nat × FieldValue} (named : nv ∈ g.pairs) :
    (s.commit g).block.x nv.1 = some nv.2 := by
  obtain ⟨groupOnce, -, apart⟩ := List.nodup_append.mp once
  have notEn : nv.1 ∉ (s.block.enGroup 1).numbers := fun en => apart _ (WriteGroup.fst_mem_numbers named) _ en rfl
  rw [State.commit_block, Block.x_apply_of_not_mem _ _ notEn]
  exact Block.x_apply_of_mem ((Block.fits_apply _ _ _).mpr fits) groupOnce named

/-- A commit keeps the variant. -/
@[simp] theorem State.isEnhanced_commit (s : State) (g : WriteGroup) : (s.commit g).isEnhanced = s.isEnhanced := by
  simp only [State.commit, State.setEnable, State.isEnhanced_regGroup]

end Sys2Proof.Machine
end

section
/-! PROOFS. SETW (42_set_waveform.md R120 to R137). -/

namespace Sys2Proof.Machine

/-- SETW in `RUNNING` on a valid channel is the commit of its value group. -/
theorem exec_setw_valid {s : State} {channel : U32} (running : s.phase = .running)
    (valid : channel.toNat < s.cfg.channels.toNat) (period pulse : U32) (inv : Bool) :
    exec (.setw channel period pulse inv) s = .next (s.commit (s.waveformGroup period pulse inv)).returnUnit :=
  (execSetw_next_iff channel period pulse inv s _).mpr
    ⟨running, (State.runSetw_valid ((s.channelInvalid_eq_false_iff channel).mpr valid) period pulse inv).symm⟩

/-- SETW in `RUNNING` on an invalid channel is the error entry alone. -/
theorem exec_setw_invalid {s : State} {channel : U32} (running : s.phase = .running)
    (invalid : s.cfg.channels.toNat ≤ channel.toNat) (period pulse : U32) (inv : Bool) :
    exec (.setw channel period pulse inv) s = .next (s.raise .invalidChannel) := by
  have notValid : s.channelInvalid channel = true := by
    rw [← Bool.not_eq_false, s.channelInvalid_eq_false_iff]
    exact Nat.not_lt.mpr invalid
  exact (execSetw_next_iff channel period pulse inv s _).mpr
    ⟨running, (State.runSetw_invalid notValid period pulse inv).symm⟩

/-- The value group is one of the block's variant. -/
theorem State.fits_waveformGroup (s : State) (period pulse : U32) (inv : Bool) :
    s.block.Fits (s.waveformGroup period pulse inv) := by
  unfold State.waveformGroup
  cases s.block <;> trivial

/-- The value group names no field twice, and not `EN`. -/
theorem State.numbers_waveformGroup_nodup (s : State) (period pulse : U32) (inv : Bool) (v : Bit) :
    ((s.waveformGroup period pulse inv).numbers ++ (s.block.enGroup v).numbers).Nodup := by
  unfold State.waveformGroup
  cases s.block with
  | enh r =>
    have fields : ((enhValues (classify period pulse) period pulse inv).map EnhWrite.number ++ [8]).Sublist [5, 6, 7, 8] := by
      cases classify period pulse <;> cases inv <;> simp [enhValues, startPolWrites, countWrites, EnhWrite.number]
    exact fields.nodup (by decide)
  | std r => exact (by decide : [5, 6, 7].Nodup)

/-- Settles O26: the commit as one state, with what its groups leave in the fields. -/
theorem setwWritesItsGroup : Obligations.SetwWritesItsGroup := fun s channel period pulse inv running valid =>
  ⟨_, exec_setw_valid running valid period pulse inv, s.commit_en _,
    fun _ named => State.commit_x_of_mem (s.fits_waveformGroup period pulse inv)
      (s.numbers_waveformGroup_nodup period pulse inv 1) named,
    fun _ unnamed notEn => s.commit_x_of_not_mem unnamed notEn,
    running, rfl, by simp [State.commit_trace], rfl, s.isEnhanced_commit _, rfl, rfl, rfl⟩

/-- The Standard block after a SETW: both counts are the request's own (R130), so nothing of the former ones is left. -/
theorem State.commit_waveformGroup_std {s : State} {r : StdRegs} (std : s.block = .std r) (period pulse : U32) (inv : Bool) :
    (s.commit (s.waveformGroup period pulse inv)).block =
      .std { r with
        hcnt := (assignByPolarity inv (stdPair (classify period pulse) period pulse)).1
        lcnt := (assignByPolarity inv (stdPair (classify period pulse) period pulse)).2
        en := 1 } := by
  have group : s.waveformGroup period pulse inv = .std (stdValues (classify period pulse) period pulse inv) := by
    simp only [State.waveformGroup, std]
  rw [group, State.commit_block_std std]
  rfl

/-- On a Standard block SETW completes, and the state it leaves admits the next SETW. -/
theorem exec_setw_std {s : State} {r : StdRegs} {channel : U32} (running : s.phase = .running) (std : s.block = .std r)
    (valid : channel.toNat < s.cfg.channels.toNat) (period pulse : U32) (inv : Bool) :
    ∃ t, exec (.setw channel period pulse inv) s = .next t ∧ t.phase = .running ∧ t.cfg = s.cfg ∧
      t.block = .std { r with
        hcnt := (assignByPolarity inv (stdPair (classify period pulse) period pulse)).1
        lcnt := (assignByPolarity inv (stdPair (classify period pulse) period pulse)).2
        en := 1 } :=
  ⟨_, exec_setw_valid running valid period pulse inv, running, rfl,
    State.commit_waveformGroup_std std period pulse inv⟩

/-- Settles O29: the normal and the inverted request differ in which count is which, and a later normal request
overwrites both. -/
theorem standardPolaritySwap : Obligations.StandardPolaritySwap := by
  refine ⟨fun _ _ _ => ⟨rfl, rfl⟩, fun s r channel period pulse running std valid => ?_⟩
  obtain ⟨tn, normal, -, -, blockN⟩ := exec_setw_std running std valid period pulse false
  obtain ⟨ti, inverted, runningI, cfgI, blockI⟩ := exec_setw_std running std valid period pulse true
  obtain ⟨tr, again, -, -, blockR⟩ := exec_setw_std runningI blockI (cfgI ▸ valid) period pulse false
  exact ⟨tn, ti, tr, _, _, normal, blockN, inverted, blockI, rfl, again, blockR.trans blockN.symm⟩

/-- Settles O18: by the branches of `classify`, the first match winning. -/
theorem classifyOrder : Obligations.ClassifyOrder := by
  intro period pulse
  unfold classify
  split
  case isTrue zero => exact ⟨iff_of_true rfl zero, iff_of_false nofun fun h => h.1 zero, iff_of_false nofun fun h => h.1 zero⟩
  case isFalse nonzero =>
    split
    case isTrue full =>
      exact ⟨iff_of_false nofun nonzero, iff_of_true rfl ⟨nonzero, full⟩, iff_of_false nofun fun h => h.2 full⟩
    case isFalse differ =>
      exact ⟨iff_of_false nofun nonzero, iff_of_false nofun fun h => differ h.2, iff_of_true rfl ⟨nonzero, differ⟩⟩

/-- The Enhanced block after a SETW: the start polarity as the flag rule leaves it (R127), and the count writes. -/
theorem State.commit_waveformGroup_enh {s : State} {r : EnhRegs} (enh : s.block = .enh r) (period pulse : U32) (inv : Bool) :
    (s.commit (s.waveformGroup period pulse inv)).block =
      .enh { ({ r with startpol := if inv then startHigh else r.startpol, en := 0 } : EnhRegs).writes
        (countWrites (classify period pulse) period pulse) with en := 1 } := by
  have group : s.waveformGroup period pulse inv = .enh (enhValues (classify period pulse) period pulse inv) := by
    simp only [State.waveformGroup, enh]
  rw [group, State.commit_block_enh enh]
  cases inv <;> rfl

/-- Settles O22: in the ZERO and GENERAL classes both counts are written, the start polarity being another field. -/
theorem setwEnhancedCounts : Obligations.SetwEnhancedCounts := by
  intro s r channel period pulse inv running enh valid
  refine ⟨_, _, exec_setw_valid running valid period pulse inv, s.commit_waveformGroup_enh enh period pulse inv,
    fun zero => ?_, fun general => ?_⟩
  · rw [zero]
    exact ⟨rfl, rfl⟩
  · rw [general]
    exact ⟨rfl, rfl⟩

/-- Settles O25: the error entry writes the answer alone, and a valid channel never takes it. -/
theorem setwInvalidChannel : Obligations.SetwInvalidChannel := by
  refine ⟨fun s channel period pulse inv running invalid => exec_setw_invalid running invalid period pulse inv,
    fun s t channel period pulse inv completes valid => ?_⟩
  obtain ⟨-, rfl⟩ := (execSetw_next_iff channel period pulse inv s t).mp completes
  rw [State.runSetw_valid ((s.channelInvalid_eq_false_iff channel).mpr valid), State.returnUnit_answer]

end Sys2Proof.Machine
end

section
/-! PROOFS. Decoder and encoder are inverse to each other (30_encoding.md R61 to R63; 40_divider_selector.md R81, R82). -/

namespace Sys2Proof.Command

/-! A field taken from the word it was put into. -/

section
variable (o : BitVec 2) (v : Bool) (c p u : U32)

@[simp] theorem pulse_word : pulse (word o v c p u) = u := BitVec.extractLsb'_append_eq_right

@[simp] theorem period_word : period (word o v c p u) = p :=
  (BitVec.extractLsb'_append_eq_of_le (by decide)).trans BitVec.extractLsb'_append_eq_right

@[simp] theorem channel_word : channel (word o v c p u) = c :=
  (BitVec.extractLsb'_append_eq_of_le (by decide)).trans <|
    (BitVec.extractLsb'_append_eq_of_le (by decide)).trans BitVec.extractLsb'_append_eq_right

@[simp] theorem inv_word : inv (word o v c p u) = v := by
  rw [inv, word_getLsbD]
  rfl

@[simp] theorem rsv_word : rsv (word o v c p u) = 0 :=
  (BitVec.extractLsb'_append_eq_of_le (by decide)).trans <|
  (BitVec.extractLsb'_append_eq_of_le (by decide)).trans <|
    (BitVec.extractLsb'_append_eq_of_le (by decide)).trans <|
    (BitVec.extractLsb'_append_eq_of_le (by decide)).trans BitVec.extractLsb'_append_eq_right

@[simp] theorem op_word : op (word o v c p u) = o := 
  (BitVec.extractLsb'_append_eq_of_le (by decide)).trans <|
  (BitVec.extractLsb'_append_eq_of_le (by decide)).trans <|
    (BitVec.extractLsb'_append_eq_of_le (by decide)).trans <|
    (BitVec.extractLsb'_append_eq_of_le (by decide)).trans <|
    (BitVec.extractLsb'_append_eq_of_le (by decide)).trans BitVec.extractLsb'_eq_self

end

/-- The one-bit field `inv`, as a slice like the others. -/
theorem ofBool_inv (w : BitVec 128) : BitVec.ofBool (inv w) = w.extractLsb' 96 1 := by
  apply BitVec.eq_of_getLsbD_eq
  intro i hi
  obtain rfl : i = 0 := by omega
  simp [inv]

/-- A word whose reserved bits are zero is put together from its fields. -/
theorem word_of_fields {w : BitVec 128} (reserved : rsv w = 0) :
    word (op w) (inv w) (channel w) (period w) (pulse w) = w := by
  have slices : word (op w) (inv w) (channel w) (period w) (pulse w) =
      op w ++ rsv w ++ BitVec.ofBool (inv w) ++ channel w ++ period w ++ pulse w := by
    rw [reserved]; rfl
  rw [slices, ofBool_inv, op, rsv, channel, period, pulse,
    BitVec.extractLsb'_append_extractLsb'_eq_extractLsb' (rfl : 126 = 97 + 29),
    BitVec.extractLsb'_append_extractLsb'_eq_extractLsb' (rfl : 97 = 96 + 1),
    BitVec.extractLsb'_append_extractLsb'_eq_extractLsb' (rfl : 96 = 64 + 32),
    BitVec.extractLsb'_append_extractLsb'_eq_extractLsb' (rfl : 64 = 32 + 32),
    BitVec.extractLsb'_append_extractLsb'_eq_extractLsb' (rfl : 32 = 0 + 32)]
  exact BitVec.extractLsb'_eq_self

/-! The command decoder on the word of a command. -/

theorem decode_word_init : decode (word 0 false 0 0 0) = .ok .init := by simp [decode]

theorem decode_word_setw (c p u : U32) (v : Bool) : decode (word 1 v c p u) = .ok (.setw c p u v) := by simp [decode]

theorem decode_word_getf (c : U32) : decode (word 2 false c 0 0) = .ok (.getf c) := by simp [decode]

/-- The three operation codes and the reserved one (R62, R63). -/
theorem op_cases (o : BitVec 2) : o = 0 ∨ o = 1 ∨ o = 2 ∨ o = 3 := by
  revert o
  decide

/-- Each branch of the command decoder that accepts a word fixes the fields that the instruction does not hold. -/
theorem encode_of_decode {w : BitVec 128} {i : Instr} (accepted : decode w = .ok i) :
    i.wellFormed = true ∧ encode i = .cmd w := by
  unfold decode at accepted
  split at accepted
  case isTrue => cases accepted
  case isFalse not3 =>
  split at accepted
  case isTrue => cases accepted
  case isFalse reserved =>
  have fields := word_of_fields (not_not.mp reserved)
  split at accepted
  case isTrue op0 =>
    split at accepted
    case isFalse => cases accepted
    case isTrue zero =>
      obtain ⟨inv0, channel0, period0, pulse0⟩ := zero
      cases accepted
      rw [op0, inv0, channel0, period0, pulse0] at fields
      exact ⟨rfl, congrArg HostWord.cmd fields⟩
  case isFalse not0 =>
  split at accepted
  case isTrue op1 =>
    cases accepted
    rw [op1] at fields
    exact ⟨rfl, congrArg HostWord.cmd fields⟩
  case isFalse not1 =>
  split at accepted
  case isFalse => cases accepted
  case isTrue zero =>
    obtain ⟨inv0, period0, pulse0⟩ := zero
    have op2 : op w = 2 := (((op_cases _).resolve_left not0).resolve_left not1).resolve_right not3
    cases accepted
    rw [op2, inv0, period0, pulse0] at fields
    exact ⟨rfl, congrArg HostWord.cmd fields⟩

end Sys2Proof.Command

namespace Sys2Proof

/-- An operand of the fallback row is an input that none of the other eight rows matches. -/
theorem Instr.wellFormed_divselFallback_iff (p : U32) : (Instr.divselFallback p).wellFormed = true ↔
    p ≠ 1 ∧ p ≠ 2 ∧ p ≠ 4 ∧ p ≠ 8 ∧ p ≠ 16 ∧ p ≠ 32 ∧ p ≠ 40 ∧ p ≠ 64 := by
  simp only [Instr.wellFormed, recognizedSet, Bool.not_eq_true', List.contains_eq_mem, decide_eq_false_iff_not,
    List.mem_cons, List.not_mem_nil, or_false, not_or, ne_eq]

/-- An input that no other row matches is read as the fallback row. -/
theorem decodePrescaler_of_wellFormed {p : U32} (fallback : (Instr.divselFallback p).wellFormed = true) :
    decodePrescaler p = .divselFallback p := by
  obtain ⟨n1, n2, n4, n8, n16, n32, n40, n64⟩ := (Instr.wellFormed_divselFallback_iff p).mp fallback
  simp only [decodePrescaler, n1, n2, n4, n8, n16, n32, n40, n64, if_false]

/-- The row that the selector's decoder reads is well formed and has the input for its word. -/
theorem encode_decodePrescaler (p : U32) :
    (decodePrescaler p).wellFormed = true ∧ encode (decodePrescaler p) = .psc p := by
  unfold decodePrescaler
  split_ifs with h1 h2 h4 h8 h16 h32 h40 h64
  case neg => exact ⟨(Instr.wellFormed_divselFallback_iff p).mpr ⟨h1, h2, h4, h8, h16, h32, h40, h64⟩, rfl⟩
  all_goals subst p; exact ⟨rfl, rfl⟩

/-- Settles O1, constructor by constructor: each field is read back from the word it was put into. -/
theorem decodeOfEncode : Obligations.DecodeOfEncode := by
  intro i wellFormed
  cases i with
  | init => exact Command.decode_word_init
  | setw c p u v => exact Command.decode_word_setw c p u v
  | getf c => exact Command.decode_word_getf c
  | divselFallback p => exact congrArg Except.ok (decodePrescaler_of_wellFormed wellFormed)
  | divsel1 | divsel2 | divsel4 | divsel8 | divsel16 | divsel32 | divsel40 | divsel64 => rfl

/-- Settles O2: a command word is put together again from its fields, and a selector's row keeps its input. -/
theorem encodeOfDecode : Obligations.EncodeOfDecode := by
  rintro (w | p) i accepted
  case cmd => exact Command.encode_of_decode accepted
  case psc =>
    cases accepted
    exact encode_decodePrescaler p

/-- The decoder reads an instruction exactly from that instruction's word. -/
theorem decode_eq_ok_iff (w : HostWord) (i : Instr) : decode w = .ok i ↔ i.wellFormed = true ∧ encode i = w :=
  ⟨encodeOfDecode w i, fun ⟨wellFormed, word⟩ => word ▸ decodeOfEncode i wellFormed⟩

end Sys2Proof
end

section
/-! PROOFS. Which command word is which command, by the rows of the opcode map, and its operands (30_encoding.md R61 to
R63). -/

namespace Sys2Proof.Command

/-- A word that the decoder accepts agrees with the match of its instruction's row under the mask. -/
theorem matchesRow_of_decode {w : BitVec 128} {i : Instr} (accepted : Sys2Proof.decode (.cmd w) = .ok i)
    (row : Laws.TableRow.Statement i) : Laws.TableRow.MatchesRow i (.cmd w) := by
  obtain ⟨wellFormed, word⟩ := (decode_eq_ok_iff _ _).mp accepted
  exact word ▸ row wellFormed

/-- Where a mask keeps a whole field, a word that agrees with a match under it has the match's field. -/
theorem extractLsb'_eq_of_and_eq {w mask hit : BitVec 128} {start len : Nat} (agrees : w &&& mask = hit)
    (whole : mask.extractLsb' start len = BitVec.allOnes len) : w.extractLsb' start len = hit.extractLsb' start len := by
  rw [← agrees, BitVec.extractLsb'_and, whole, BitVec.and_allOnes]

/-- The row of INIT: its mask keeps the whole word. -/
theorem decode_init_iff (w : BitVec 128) :
    Sys2Proof.decode (.cmd w) = .ok .init ↔ w &&& 0xFFFFFFFFFFFFFFFFFFFFFFFFFFFFFFFF = 0 := by
  constructor
  · intro accepted
    obtain ⟨_, _, ⟨⟩, agrees⟩ := matchesRow_of_decode accepted Laws.TableRow.init
    exact agrees
  · intro agrees
    have zero : w.extractLsb' 0 128 = _ := extractLsb'_eq_of_and_eq agrees rfl
    rw [BitVec.extractLsb'_eq_self] at zero
    exact zero ▸ decode_word_init

/-- The row of SETW: its mask keeps `op` and the reserved bits. -/
theorem decode_setw_iff (w : BitVec 128) : (∃ c p u v, Sys2Proof.decode (.cmd w) = .ok (.setw c p u v)) ↔
    w &&& 0xFFFFFFFE000000000000000000000000 = 0x40000000000000000000000000000000 := by
  constructor
  · rintro ⟨c, p, u, v, accepted⟩
    obtain ⟨_, _, ⟨⟩, agrees⟩ := matchesRow_of_decode accepted (Laws.TableRow.setw c p u v)
    exact agrees
  · intro agrees
    have op1 : op w = 1 := extractLsb'_eq_of_and_eq agrees rfl
    have reserved : rsv w = 0 := extractLsb'_eq_of_and_eq agrees rfl
    have fields := word_of_fields reserved
    rw [op1] at fields
    have accepted := decode_word_setw (channel w) (period w) (pulse w) (inv w)
    rw [fields] at accepted
    exact ⟨_, _, _, _, accepted⟩

/-- The row of GETF: its mask keeps all fields but the channel. -/
theorem decode_getf_iff (w : BitVec 128) : (∃ c, Sys2Proof.decode (.cmd w) = .ok (.getf c)) ↔
    w &&& 0xFFFFFFFF00000000FFFFFFFFFFFFFFFF = 0x80000000000000000000000000000000 := by
  constructor
  · rintro ⟨c, accepted⟩
    obtain ⟨_, _, ⟨⟩, agrees⟩ := matchesRow_of_decode accepted (Laws.TableRow.getf c)
    exact agrees
  · intro agrees
    have op2 : op w = 2 := extractLsb'_eq_of_and_eq agrees rfl
    have reserved : rsv w = 0 := extractLsb'_eq_of_and_eq agrees rfl
    have inv0 : BitVec.ofBool (inv w) = BitVec.ofBool false := (ofBool_inv w).trans (extractLsb'_eq_of_and_eq agrees rfl)
    have period0 : period w = 0 := extractLsb'_eq_of_and_eq agrees rfl
    have pulse0 : pulse w = 0 := extractLsb'_eq_of_and_eq agrees rfl
    have fields := word_of_fields reserved
    rw [op2, BitVec.ofBool_eq_iff_eq.mp inv0, period0, pulse0] at fields
    have accepted := decode_word_getf (channel w)
    rw [fields] at accepted
    exact ⟨_, accepted⟩

/-- A command word that is not reserved is one of the three commands. -/
theorem decode_cases (w : BitVec 128) :
    (∃ e, Sys2Proof.decode (.cmd w) = .error e) ∨ Sys2Proof.decode (.cmd w) = .ok .init ∨
    (∃ c p u v, Sys2Proof.decode (.cmd w) = .ok (.setw c p u v)) ∨ ∃ c, Sys2Proof.decode (.cmd w) = .ok (.getf c) := by
  cases read : Sys2Proof.decode (.cmd w) with
  | error e => exact .inl ⟨e, rfl⟩
  | ok i =>
    obtain ⟨-, word⟩ := (decode_eq_ok_iff _ _).mp read
    cases i with
    | init => exact .inr (.inl rfl)
    | setw c p u v => exact .inr (.inr (.inl ⟨c, p, u, v, rfl⟩))
    | getf c => exact .inr (.inr (.inr ⟨c, rfl⟩))
    | divsel1 | divsel2 | divsel4 | divsel8 | divsel16 | divsel32 | divsel40 | divsel64 | divselFallback => cases word

/-- Settles O3: the three rows, and a reserved word is one that is none of the three commands. -/
theorem commandRowsByMask : Obligations.CommandRowsByMask := by
  refine fun w => ⟨decode_init_iff w, decode_setw_iff w, decode_getf_iff w, ?_⟩
  have initZero : Sys2Proof.decode (.cmd w) = .ok .init ↔ w = 0 := by
    rw [decode_init_iff]
    exact Iff.of_eq (congrArg (· = 0) BitVec.and_allOnes)
  rw [ne_eq, ne_eq, ne_eq, ← initZero, ← decode_setw_iff, ← decode_getf_iff]
  constructor
  · rintro ⟨e, reserved⟩
    simp [reserved]
  · rintro ⟨notInit, notSetw, notGetf⟩
    exact (decode_cases w).resolve_right (not_or.mpr ⟨notInit, not_or.mpr ⟨notSetw, notGetf⟩⟩)

/-- A field as a number: the word's quotient by the weight of the field's lowest bit, cut to the field's width. -/
theorem toNat_field (w : BitVec 128) (start len : Nat) :
    (w.extractLsb' start len).toNat = w.toNat / 2 ^ start % 2 ^ len := by
  rw [BitVec.extractLsb'_toNat, Nat.shiftRight_eq_div_pow]

/-- `inv` as a number. -/
theorem inv_eq_true_iff (w : BitVec 128) : inv w = true ↔ w.toNat / 2 ^ 96 % 2 = 1 := by
  rw [inv, BitVec.getLsbD, Nat.testBit_eq_decide_div_mod_eq, decide_eq_true_iff]

/-- Settles O4: the operands are the fields that were put into the word, and a field is a slice of it. -/
theorem operandsAreFields : Obligations.OperandsAreFields := by
  refine fun w => ⟨fun c p u v accepted => ?_, fun c accepted => ?_⟩
  · obtain ⟨-, ⟨⟩⟩ := (decode_eq_ok_iff _ _).mp accepted
    have number := toNat_field (word 1 v c p u)
    refine ⟨?_, ?_, ?_, ?_⟩
    · rw [← number, ← channel, channel_word]
    · rw [← number, ← period, period_word]
    · simpa using (congrArg BitVec.toNat (pulse_word 1 v c p u)).symm.trans (number 0 32)
    · rw [← inv_eq_true_iff, inv_word]
  · obtain ⟨-, ⟨⟩⟩ := (decode_eq_ok_iff _ _).mp accepted
    rw [← toNat_field, ← channel, channel_word]

/-- Settles O5: each word is a closed value, read by evaluation. -/
theorem sampleWords : Obligations.SampleWords := by
  unfold Obligations.SampleWords
  decide

end Sys2Proof.Command
end

section
/-! PROOFS. The commit discipline as an invariant: the recorded groups, replayed, and the timer they meet (20_memory.md
R43, R46; 41_initialize.md R107). -/

namespace Sys2Proof.Machine

/-- A history in two parts is replayed part by part. -/
theorem replay_append (b : Block) (tr tr' : List Event) : replay b (tr ++ tr') = replay (replay b tr) tr' :=
  List.foldl_append

/-- A history in two parts is guarded when the first part is, and the second one from where the first has led. -/
theorem guarded_append (b : Block) (tr tr' : List Event) :
    guarded b (tr ++ tr') ↔ guarded b tr ∧ guarded (replay b tr) tr' := by
  induction tr generalizing b with
  | nil => simp [guarded, replay]
  | cons e tr ih => exact (and_congr_right fun _ => ih _).trans and_assoc.symm

section
variable {b0 : Block} {s : State}

/-- A new event that changes the block as the machine does, and may happen to it, keeps the history right. -/
theorem State.FollowsTrace.append {t : State} {e : Event} (follows : s.FollowsTrace b0) (block : t.block = e.replay s.block)
    (trace : t.trace = s.trace ++ [e]) (allowed : e.guardedAt s.block) : t.FollowsTrace b0 := by
  obtain ⟨replayed, guards⟩ := follows
  unfold State.FollowsTrace
  rw [trace, block, replay_append, guarded_append, ← replayed]
  exact ⟨rfl, guards, allowed, trivial⟩

/-- The group that writes only `EN` may happen at any time. -/
theorem State.FollowsTrace.setEnable (follows : s.FollowsTrace b0) (v : Bit) : (s.setEnable v).FollowsTrace b0 :=
  follows.append rfl rfl (.inl (by cases s.block <;> rfl))

/-- Any group may happen while the timer is disabled. -/
theorem State.FollowsTrace.regGroup (follows : s.FollowsTrace b0) (disabled : s.block.en = 0) (g : WriteGroup) :
    (s.regGroup g).FollowsTrace b0 :=
  follows.append rfl rfl (.inr disabled)

/-- A commit disables the timer before it writes the values. -/
theorem State.FollowsTrace.commit (follows : s.FollowsTrace b0) (g : WriteGroup) : (s.commit g).FollowsTrace b0 :=
  ((follows.setEnable 0).regGroup (s.block.en_apply_enGroup 0) g).setEnable 1

/-- The collaborators' calls write no register. -/
theorem State.FollowsTrace.callCollaborators (follows : s.FollowsTrace b0) : s.callCollaborators.FollowsTrace b0 :=
  (follows.append (t := s.emit (.clkgate s.cfg.clockId)) rfl rfl trivial).append rfl rfl trivial

/-- The bring-up writes the baseline group, and so needs a disabled timer. -/
theorem State.FollowsTrace.bringUp (follows : s.FollowsTrace b0) (disabled : s.block.en = 0) : s.bringUp.FollowsTrace b0 :=
  State.FollowsTrace.setEnable (State.FollowsTrace.regGroup (s := { s with clkHz := clkHzConst }) follows disabled _) 1

end

/-- The last group of the bring-up sets `EN`. -/
@[simp] theorem State.bringUp_en (s : State) : s.bringUp.block.en = 1 := by
  rw [State.bringUp_block, ← Block.enGroup_apply s.block s.baseline, Block.en_apply_enGroup]

/-- Settles O51: the timer being disabled in `UNINIT` is what admits the baseline group of INIT, so both are kept together. -/
theorem stepKeepsCommitDiscipline : Obligations.StepKeepsCommitDiscipline := by
  intro b0 s t follows enabled h
  refine step_keeps (P := fun u => u.FollowsTrace b0 ∧ u.EnabledByPhase) (inbox := fun _ _ kept => kept)
    (answer := fun _ _ kept => kept) (initOk := ?initOk) (initFail := ?initFail) (commit := ?commit) ⟨follows, enabled⟩ h
  case initOk =>
    rintro u ⟨follows, disabled, -⟩ uninit -
    exact ⟨follows.callCollaborators.bringUp (disabled uninit), nofun, fun _ => u.callCollaborators.bringUp_en⟩
  case initFail =>
    rintro u e ⟨follows, enabled⟩ - -
    exact ⟨follows.callCollaborators, enabled⟩
  case commit =>
    rintro u period pulse inv ⟨follows, -⟩ running
    exact ⟨follows.commit _, fun uninit => absurd (running.symm.trans uninit) nofun, fun _ => u.commit_en _⟩

end Sys2Proof.Machine
end

section
/-! PROOFS. What INIT and SETW leave in the register block. -/

namespace Sys2Proof.Machine

/-- The Enhanced block after the bring-up: every field is written (R105, R107). -/
theorem State.bringUp_block_enh {s : State} {r : EnhRegs} (enh : s.block = .enh r) :
    s.bringUp.block = .enh { clksrc := .internal40M, diven := 1, div := divsel s.cfg.prescaler, mode := .pwmManual, outen := 1,
                             startpol := startLow, maxcnt := max32, cmp := 0, en := 1 } := by
  rw [State.bringUp_block, State.baseline, enh]
  rfl

/-- The Standard block after the bring-up: every field is written (R106, R107). -/
theorem State.bringUp_block_std {s : State} {r : StdRegs} (std : s.block = .std r) :
    s.bringUp.block = .std { clksrc := .internal40M, diven := 1, div := divsel s.cfg.prescaler, mode := .userDefined,
                             pwmen := 1, hcnt := 0, lcnt := max32, en := 1 } := by
  rw [State.bringUp_block, State.baseline, std]
  rfl

/-- The value group on an Enhanced block. -/
theorem State.waveformGroup_enh {s : State} {r : EnhRegs} (enh : s.block = .enh r) (period pulse : U32) (inv : Bool) :
    s.waveformGroup period pulse inv = .enh (enhValues (classify period pulse) period pulse inv) := by
  simp only [State.waveformGroup, enh]

/-- The value group on a Standard block. -/
theorem State.waveformGroup_std {s : State} {r : StdRegs} (std : s.block = .std r) (period pulse : U32) (inv : Bool) :
    s.waveformGroup period pulse inv = .std (stdValues (classify period pulse) period pulse inv) := by
  simp only [State.waveformGroup, std]

/-- The start-polarity bit after a SETW: set by an inverted request, and otherwise as it was (R127). -/
theorem State.startpol_commit {s : State} {r r' : EnhRegs} {period pulse : U32} {inv : Bool} (before : s.block = .enh r)
    (after : (s.commit (s.waveformGroup period pulse inv)).block = .enh r') :
    r'.startpol = if inv then startHigh else r.startpol := by
  rw [State.commit_waveformGroup_enh before] at after
  cases after
  cases classify period pulse <;> rfl

/-- The configuration fields of a block hold what INIT writes for a prescaler (R105, R106). -/
def Block.ConfiguredFor (prescaler : U32) : Block → Prop
  | .enh r => r.clksrc = .internal40M ∧ r.diven = 1 ∧ r.div = divsel prescaler ∧ r.mode = .pwmManual ∧ r.outen = 1
  | .std r => r.clksrc = .internal40M ∧ r.diven = 1 ∧ r.div = divsel prescaler ∧ r.mode = .userDefined ∧ r.pwmen = 1

theorem State.runningConfigured_iff (s : State) :
    s.RunningConfigured ↔ (s.phase = .running → s.clkHz = 40000000 ∧ s.block.ConfiguredFor s.cfg.prescaler) := by
  unfold State.RunningConfigured
  cases s.block <;> rfl

/-- The bring-up leaves the configuration fields of either variant as the prescaler asks. -/
theorem State.configuredFor_bringUp (s : State) : s.bringUp.block.ConfiguredFor s.cfg.prescaler := by
  cases block : s.block with
  | enh r => rw [State.bringUp_block_enh block]; exact ⟨rfl, rfl, rfl, rfl, rfl⟩
  | std r => rw [State.bringUp_block_std block]; exact ⟨rfl, rfl, rfl, rfl, rfl⟩

/-- The value group of a SETW names no configuration field. -/
theorem State.configuredFor_commit {s : State} {prescaler : U32} (configured : s.block.ConfiguredFor prescaler)
    (period pulse : U32) (inv : Bool) :
    (s.commit (s.waveformGroup period pulse inv)).block.ConfiguredFor prescaler := by
  cases block : s.block with
  | enh r =>
    rw [block] at configured
    rw [State.commit_waveformGroup_enh block]
    cases classify period pulse <;> exact configured
  | std r =>
    rw [block] at configured
    rw [State.commit_waveformGroup_std block]
    exact configured

/-- Settles O50: the bring-up configures the block, and a commit keeps its configuration fields. -/
theorem stepKeepsRunningConfigured : Obligations.StepKeepsRunningConfigured := by
  refine fun s t configured h => step_keeps (P := State.RunningConfigured) (inbox := fun _ _ kept => kept)
    (answer := fun _ _ kept => kept) (initOk := ?initOk) (initFail := fun _ _ kept _ _ => kept) (commit := ?commit)
    configured h
  case initOk =>
    rintro u - - -
    exact (State.runningConfigured_iff _).mpr fun _ => ⟨rfl, u.callCollaborators.configuredFor_bringUp⟩
  case commit =>
    intro u period pulse inv kept running
    obtain ⟨clock, configured⟩ := (u.runningConfigured_iff).mp kept running
    exact (State.runningConfigured_iff _).mpr fun _ => ⟨clock, State.configuredFor_commit configured period pulse inv⟩

/-! Whether the start-polarity bit has been set since INIT (R174). -/

/-- A history without a write group sets no start polarity. -/
theorem any_setsStartHigh_of_no_group {tr : List Event} (none : tr.all (fun e => !e.isGroup) = true) :
    tr.any Event.setsStartHigh = false := by
  rw [List.all_eq_true] at none
  rw [List.any_eq_false]
  intro e mem
  have noGroup := none e mem
  cases e with
  | clkgate | pinmux => exact Bool.false_ne_true
  | wg g => cases noGroup

/-- The value group of a SETW on an Enhanced block sets the start polarity exactly when the request is inverted. -/
@[simp] theorem setsStartHigh_enhValues (c : DutyClass) (period pulse : U32) (inv : Bool) :
    Event.setsStartHigh (.wg (.enh (enhValues c period pulse inv))) = inv := by
  cases inv <;> cases c <;> rfl

/-- The baseline group writes `START_LOW` (R105). -/
@[simp] theorem setsStartHigh_baseline (s : State) : Event.setsStartHigh (.wg s.baseline) = false := by
  unfold State.baseline
  cases s.block <;> rfl

@[simp] theorem setsStartHigh_enGroup (b : Block) (v : Bit) : Event.setsStartHigh (.wg (b.enGroup v)) = false := by
  cases b <;> rfl

/-- Settles O53: INIT clears the bit and has recorded no group that sets it; a SETW sets both or neither. -/
theorem stepKeepsStartPolRecorded : Obligations.StepKeepsStartPolRecorded := by
  refine fun s t recorded h => step_keeps (P := State.StartPolRecorded) (inbox := fun _ _ kept => kept)
    (answer := fun _ _ kept => kept) (initOk := ?initOk) (initFail := ?initFail) (commit := ?commit) recorded h
  case initOk =>
    rintro u ⟨noGroup, -⟩ uninit -
    refine ⟨nofun, fun _ r' after => ?_⟩
    have quiet : u.callCollaborators.bringUp.trace.any Event.setsStartHigh = false := by
      simp only [State.bringUp_trace, State.callCollaborators_trace, List.any_append,
        any_setsStartHigh_of_no_group (noGroup uninit), List.any_cons, List.any_nil, setsStartHigh_baseline,
        setsStartHigh_enGroup]
      rfl
    rw [State.returnUnit_trace, quiet]
    cases before : u.block with
    | enh r =>
      rw [State.returnUnit_block, State.bringUp_block_enh (s := u.callCollaborators) before] at after
      cases after
      rfl
    | std r =>
      rw [State.returnUnit_block, State.bringUp_block_std (s := u.callCollaborators) before] at after
      cases after
  case initFail =>
    rintro u e ⟨noGroup, -⟩ uninit -
    refine ⟨fun _ => ?_, fun running => absurd (running.symm.trans uninit) nofun⟩
    rw [State.callCollaborators_trace, List.all_append, List.all_append, noGroup uninit]
    rfl
  case commit =>
    rintro u period pulse inv ⟨-, recorded⟩ running
    refine ⟨fun uninit => absurd (running.symm.trans uninit) nofun, fun _ r' after => ?_⟩
    cases before : u.block with
    | enh r =>
      rw [State.startpol_commit before after, State.commit_trace, State.waveformGroup_enh before]
      simp only [List.any_append, List.any_cons, List.any_nil, setsStartHigh_enGroup, setsStartHigh_enhValues,
        ← recorded running r before, Bool.or_false]
      cases inv with
      | false => exact (Bool.or_false _).symm
      | true => exact (Bool.or_true _).symm
    | std r =>
      rw [State.commit_waveformGroup_std before] at after
      cases after

end Sys2Proof.Machine
end

section
/-! PROOFS. What the decode functions read from the counts that SETW writes (44_decode.md R171, R173). -/

namespace Sys2Proof.Machine

/-- `classify` in the ZERO class (R122). -/
theorem classify_eq_zero {period pulse : U32} (zero : period = 0 ∨ pulse = 0) : classify period pulse = .zero :=
  (classifyOrder period pulse).1.mpr zero

/-- `classify` in the FULL class (R122). -/
theorem classify_self {period : U32} (nonzero : period ≠ 0) : classify period period = .full :=
  (classifyOrder period period).2.1.mpr ⟨not_or.mpr ⟨nonzero, nonzero⟩, rfl⟩

/-- `classify` in the GENERAL class (R122). -/
theorem classify_eq_general {period pulse : U32} (period0 : period ≠ 0) (pulse0 : pulse ≠ 0) (differ : period ≠ pulse) :
    classify period pulse = .general :=
  (classifyOrder period pulse).2.2.mpr ⟨not_or.mpr ⟨period0, pulse0⟩, differ⟩

/-- What a request asks for, as the decode functions name it: its class, with the two numbers where they matter. -/
def Duty.of (period pulse : U32) : Duty :=
  match classify period pulse with
  | .zero => .zero
  | .full => .full
  | .general => .general period pulse

theorem Duty.dutyClass_of (period pulse : U32) : (Duty.of period pulse).dutyClass = classify period pulse := by
  unfold Duty.of
  cases classify period pulse <;> rfl

/-- The pair of counts of a request decodes to the request (R132 to R134, R171). In the GENERAL class the inactive count is
not zero because the numbers differ, and the two counts add up to the period whether the difference has wrapped or not. -/
theorem pairdec_stdPair (period pulse : U32) :
    pairdec (stdPair (classify period pulse) period pulse).1 (stdPair (classify period pulse) period pulse).2 =
      some (Duty.of period pulse) := by
  unfold Duty.of
  cases cls : classify period pulse with
  | zero => rfl
  | full => rfl
  | general =>
    obtain ⟨nonzero, differ⟩ := (classifyOrder period pulse).2.2.mp cls
    obtain ⟨period0, pulse0⟩ := not_or.mp nonzero
    have sum : pulse + (period - pulse) = period := by rw [BitVec.add_comm, BitVec.sub_add_cancel]
    have rest : period - pulse ≠ 0 := fun none => differ (by rw [← sum, none]; exact BitVec.add_zero _)
    simp only [pairdec, stdPair, sum, pulse0, rest, period0, false_and, and_false, if_false, ne_eq, not_false_eq_true,
      and_self, if_true]

/-- Which pairs of counts stand for nothing (R171). -/
theorem pairdec_eq_none_iff (a i : U32) : pairdec a i = none ↔
    (a = 0 ∧ i ≠ max32) ∨ (i = 0 ∧ a ≠ max32) ∨ (a ≠ 0 ∧ i ≠ 0 ∧ a + i = 0) := by
  unfold pairdec
  split_ifs with zero full general
  · obtain ⟨rfl, rfl⟩ := zero
    decide
  · obtain ⟨rfl, rfl⟩ := full
    decide
  · obtain ⟨a0, i0, sum0⟩ := general
    exact iff_of_false nofun (by simp only [a0, i0, sum0, false_and, and_false, or_self, not_false_eq_true])
  · refine iff_of_true rfl ?_
    by_cases a0 : a = 0
    · exact .inl ⟨a0, fun inactive => zero ⟨a0, inactive⟩⟩
    · by_cases i0 : i = 0
      · exact .inr (.inl ⟨i0, fun active => full ⟨active, i0⟩⟩)
      · exact .inr (.inr ⟨a0, i0, not_not.mp fun sum0 => general ⟨a0, i0, sum0⟩⟩)

/-- A pair of counts that stands for something does so with the counts exchanged. -/
theorem isSome_pairdec_comm (a i : U32) : (pairdec a i).isSome = (pairdec i a).isSome := by
  rw [Bool.eq_iff_iff, Option.isSome_iff_ne_none, Option.isSome_iff_ne_none, ne_eq, ne_eq, pairdec_eq_none_iff,
    pairdec_eq_none_iff, BitVec.add_comm i a]
  exact not_congr (by tauto)

/-- Reading under a polarity undoes the assignment by that polarity (R131, R171). -/
theorem stddec_assignByPolarity (inv : Bool) (pair : U32 × U32) :
    stddec (assignByPolarity inv pair).1 (assignByPolarity inv pair).2 inv = pairdec pair.1 pair.2 := by
  cases inv <;> rfl

/-- The counts that are the Standard values of a request. -/
theorem stdValues_eq_iff (c : DutyClass) (period pulse : U32) (inv : Bool) (h l : U32) :
    stdValues c period pulse inv = [.hcnt h, .lcnt l] ↔ assignByPolarity inv (stdPair c period pulse) = (h, l) := by
  simp [stdValues, Prod.ext_iff]

/-- Settles O33: the pair decodes to the request, and the polarity that exchanged it exchanges it back. -/
theorem stddecOfStdValues : Obligations.StddecOfStdValues := by
  intro period pulse inv h l values
  have decoded := stddec_assignByPolarity inv (stdPair (classify period pulse) period pulse)
  rw [(stdValues_eq_iff _ _ _ _ _ _).mp values, pairdec_stdPair] at decoded
  exact decoded

/-- A pair of counts that decodes is the pair of a request for what it decodes to. -/
theorem exists_stdPair_of_pairdec {a i : U32} {d : Duty} (decoded : pairdec a i = some d) :
    ∃ period pulse, Duty.of period pulse = d ∧ stdPair (classify period pulse) period pulse = (a, i) ∧
      ∀ p u, d = .general p u → p = period ∧ u = pulse := by
  unfold pairdec at decoded
  split_ifs at decoded with zero full general
  · obtain ⟨rfl, rfl⟩ := zero
    cases decoded
    exact ⟨0, 0, rfl, rfl, nofun⟩
  · obtain ⟨rfl, rfl⟩ := full
    cases decoded
    exact ⟨1, 1, rfl, rfl, nofun⟩
  · obtain ⟨a0, i0, sum0⟩ := general
    cases decoded
    have cls : classify (a + i) a = .general :=
      classify_eq_general sum0 a0 fun same => i0 (add_eq_left.mp same)
    refine ⟨a + i, a, by rw [Duty.of, cls], ?_, fun p u same => by cases same; exact ⟨rfl, rfl⟩⟩
    rw [cls, stdPair, BitVec.add_comm, BitVec.add_sub_cancel]

/-- Settles O34: re-encoding through the pair, the undecodable pairs, and inverted reading as the exchange of the counts. -/
theorem stddecImages : Obligations.StddecImages := by
  refine ⟨fun h l inv d decoded => ?_, pairdec_eq_none_iff, fun _ _ => rfl⟩
  have pair : ∃ a i, assignByPolarity inv (a, i) = (h, l) ∧ pairdec a i = some d := by
    cases inv with
    | false => exact ⟨h, l, rfl, decoded⟩
    | true => exact ⟨l, h, rfl, decoded⟩
  obtain ⟨a, i, assigned, read⟩ := pair
  obtain ⟨period, pulse, rfl, encoded, numbers⟩ := exists_stdPair_of_pairdec read
  exact ⟨period, pulse, (Duty.dutyClass_of period pulse).symm, numbers,
    (stdValues_eq_iff _ _ _ _ _ _).mpr (encoded ▸ assigned)⟩

/-- What ENHDEC reads from the counts of a request (R124 to R126, R173): the collision is the pair of numbers that the ZERO
class writes. -/
theorem enhdec_writes_countWrites (r : EnhRegs) (period pulse : U32) :
    enhdec (r.writes (countWrites (classify period pulse) period pulse)).maxcnt
        (r.writes (countWrites (classify period pulse) period pulse)).cmp =
      if period = 0 ∨ pulse = 0 then some .zero
      else if period = pulse then some .full
      else if period = 0xFFFFFFFE ∧ pulse = 0xFFFFFFFF then some .zero
      else some (.general period pulse) := by
  split_ifs with zero full collision
  · rw [classify_eq_zero zero]
    rfl
  · subst full
    rw [classify_self (not_or.mp zero).1]
    rfl
  · obtain ⟨rfl, rfl⟩ := collision
    rfl
  · obtain ⟨period0, pulse0⟩ := not_or.mp zero
    rw [classify_eq_general period0 pulse0 full]
    show enhdec period pulse = some (.general period pulse)
    simp only [enhdec, enhZeroMaxcnt, enhZeroCmp, pulse0, collision, period0, full, if_false, ne_eq, not_false_eq_true,
      and_self, if_true]

/-- Settles O35: the counts that the commit leaves are those of the count writes alone. -/
theorem enhdecAfterSetw : Obligations.EnhdecAfterSetw :=
  fun s _ _ period pulse inv running enh valid => ⟨_, _, exec_setw_valid running valid period pulse inv,
    s.commit_waveformGroup_enh enh period pulse inv, enhdec_writes_countWrites _ period pulse⟩

/-- The count registers of a block hold an image that decodes, under either polarity (R171, R173). -/
def Block.CountsRead : Block → Prop
  | .enh r => (enhdec r.maxcnt r.cmp).isSome = true
  | .std r => (stddec r.hcnt r.lcnt false).isSome = true ∧ (stddec r.hcnt r.lcnt true).isSome = true

theorem State.countsDecode_iff (s : State) : s.CountsDecode ↔ (s.phase = .running → s.block.CountsRead) := by
  unfold State.CountsDecode
  cases s.block <;> rfl

/-- The baseline counts decode: as FULL on an Enhanced block, and on a Standard block as ZERO or, inverted, as FULL. -/
theorem State.countsRead_bringUp (s : State) : s.bringUp.block.CountsRead := by
  cases block : s.block with
  | enh r => rw [State.bringUp_block_enh block]; rfl
  | std r => rw [State.bringUp_block_std block]; exact ⟨rfl, rfl⟩

/-- The counts of every request decode. -/
theorem State.countsRead_commit (s : State) (period pulse : U32) (inv : Bool) :
    (s.commit (s.waveformGroup period pulse inv)).block.CountsRead := by
  cases block : s.block with
  | enh r =>
    rw [State.commit_waveformGroup_enh block]
    refine (congrArg (Option.isSome ·) (enhdec_writes_countWrites _ period pulse)).trans ?_
    split_ifs <;> rfl
  | std r =>
    have pair : (pairdec _ _).isSome = true := congrArg (Option.isSome ·) (pairdec_stdPair period pulse)
    rw [State.commit_waveformGroup_std block]
    cases inv with
    | false => exact ⟨pair, (isSome_pairdec_comm _ _).trans pair⟩
    | true => exact ⟨(isSome_pairdec_comm _ _).trans pair, pair⟩

/-- Settles O52: the counts that the bring-up and the counts that a SETW writes decode. -/
theorem stepKeepsCountsDecode : Obligations.StepKeepsCountsDecode := by
  refine fun s t counts h => step_keeps (P := State.CountsDecode) (inbox := fun _ _ kept => kept)
    (answer := fun _ _ kept => kept) (initOk := ?initOk) (initFail := fun _ _ kept _ _ => kept) (commit := ?commit)
    counts h
  case initOk =>
    rintro u - - -
    exact (State.countsDecode_iff _).mpr fun _ => u.callCollaborators.countsRead_bringUp
  case commit =>
    rintro u period pulse inv - -
    exact (State.countsDecode_iff _).mpr fun _ => u.countsRead_commit period pulse inv

/-- Settles O28: the class is GENERAL, and the difference of the two numbers does not wrap. -/
theorem standardCountsSum : Obligations.StandardCountsSum := by
  intro s r channel period pulse inv running std valid positive below
  obtain ⟨t, completes, -, -, block⟩ := exec_setw_std running std valid period pulse inv
  refine ⟨t, _, completes, block, ?_⟩
  have general : classify period pulse = .general := by
    refine classify_eq_general ?_ ?_ ?_ <;> rintro rfl <;> simp at *
  have inactive : (period - pulse).toNat = period.toNat - pulse.toNat :=
    BitVec.toNat_sub_of_le (BitVec.le_def.mpr below.le)
  rw [general]
  cases inv with
  | false =>
    show pulse.toNat + (period - pulse).toNat = period.toNat
    omega
  | true =>
    show (period - pulse).toNat + pulse.toNat = period.toNat
    omega

end Sys2Proof.Machine
end

section
/-! PROOFS. The codes of the recognized prescalers and their decoding (40_divider_selector.md R80; 44_decode.md R170). -/

namespace Sys2Proof.Machine

/-- The eight codes are pairwise distinct: their positions are, and the assignment is a permutation (R80). -/
theorem divCode_injective : Function.Injective Config.divCode := by
  intro r q same
  have position : r.index.val = q.index.val :=
    Fin.mk.inj (Config.divCodeAt.injective (congrArg BitVec.toFin same))
  cases r <;> cases q <;> first | rfl | cases position

/-- The recognized prescalers are those that a member of `Recognized` stands for. -/
theorem mem_recognizedSet_iff (p : U32) : p ∈ recognizedSet ↔ ∃ r, prescalerOf r = p := by
  constructor
  · intro mem
    simp only [recognizedSet, List.mem_cons, List.not_mem_nil, or_false] at mem
    obtain rfl | rfl | rfl | rfl | rfl | rfl | rfl | rfl := mem
    exacts [⟨.p1, rfl⟩, ⟨.p2, rfl⟩, ⟨.p4, rfl⟩, ⟨.p8, rfl⟩, ⟨.p16, rfl⟩, ⟨.p32, rfl⟩, ⟨.p40, rfl⟩, ⟨.p64, rfl⟩]
  · rintro ⟨r, rfl⟩
    cases r <;> decide

/-- Every result of the selector is one of the eight codes. -/
theorem exists_divCode_eq_divsel (p : U32) : ∃ r, Config.divCode r = divsel p := by
  by_cases mem : p ∈ recognizedSet
  · obtain ⟨r, rfl⟩ := (mem_recognizedSet_iff p).mp mem
    exact ⟨r, (divsel_prescalerOf r).symm⟩
  · exact ⟨.p1, (divsel_of_not_mem_recognizedSet mem).symm⟩

/-- DIVDEC reads each of the eight codes, the earlier tests failing because the codes are distinct. -/
@[simp] theorem divdec_divCode (r : Recognized) : divdec (Config.divCode r) = some (prescalerOf r) := by
  simp only [divdec, divdecWith, divCode_injective.eq_iff]
  cases r <;> rfl

/-- What DIVDEC reads is the prescaler whose code it was given. -/
theorem exists_divCode_of_divdec {c : DivCode} {p : U32} (read : divdec c = some p) :
    ∃ r, Config.divCode r = c ∧ prescalerOf r = p := by
  unfold divdec divdecWith at read
  split_ifs at read with c1 c2 c4 c8 c16 c32 c40 c64 <;> cases read
  exacts [⟨.p1, c1.symm, rfl⟩, ⟨.p2, c2.symm, rfl⟩, ⟨.p4, c4.symm, rfl⟩, ⟨.p8, c8.symm, rfl⟩, ⟨.p16, c16.symm, rfl⟩,
    ⟨.p32, c32.symm, rfl⟩, ⟨.p40, c40.symm, rfl⟩, ⟨.p64, c64.symm, rfl⟩]

/-- DIVDEC undoes the selector on the recognized prescalers. -/
theorem divdec_divsel_of_mem {p : U32} (mem : p ∈ recognizedSet) : divdec (divsel p) = some p := by
  obtain ⟨r, rfl⟩ := (mem_recognizedSet_iff p).mp mem
  rw [divsel_prescalerOf, divdec_divCode]

/-- DIVDEC reads the silent fallback as the prescaler 1. -/
theorem divdec_divsel_of_not_mem {p : U32} (unrecognized : p ∉ recognizedSet) : divdec (divsel p) = some 1 := by
  rw [divsel_of_not_mem_recognizedSet unrecognized, divdec_divCode]
  rfl

/-- Settles O13: DIVDEC is the inverse of the eight codes, and the selector's results are these eight. -/
theorem divdecLaws : Obligations.DivdecLaws := by
  have inverse : ∀ (c : DivCode) (p : U32), divdec c = some p → p ∈ recognizedSet ∧ divsel p = c := by
    intro c p read
    obtain ⟨r, rfl, rfl⟩ := exists_divCode_of_divdec read
    exact ⟨(mem_recognizedSet_iff _).mpr ⟨r, rfl⟩, divsel_prescalerOf r⟩
  refine ⟨fun _ => divdec_divsel_of_mem, fun _ => divdec_divsel_of_not_mem, inverse, fun c => ⟨?_, ?_⟩⟩
  · rintro unread p rfl
    obtain ⟨r, code⟩ := exists_divCode_eq_divsel p
    rw [← code, divdec_divCode] at unread
    cases unread
  · intro outside
    cases read : divdec c with
    | none => rfl
    | some p => exact absurd (inverse c p read).2 (outside p)

/-- Settles O12: the width is three and more, and DIVDEC tells the recognized prescalers' codes apart. -/
theorem divselInjective : Obligations.DivselInjective := by
  refine ⟨Nat.le_add_right 3 _, fun p q memP memQ same => ?_⟩
  have read := divdec_divsel_of_mem memP
  rw [same, divdec_divsel_of_mem memQ] at read
  exact (Option.some.inj read).symm

/-- A row of the selector completes with the code of the input it stands for. -/
theorem exec_selector {i : Instr} {p : U32} (row : encode i = .psc p) (s : State) :
    exec i s = .next (s.returnCode (divsel p)) := by
  cases i <;> cases row <;> rfl

/-- Settles O10: the eight rows by the input each stands for, and the fallback by the code of an unrecognized input. -/
theorem divselRows : Obligations.DivselRows := by
  have recognized (r : Recognized) {i : Instr} (row : encode i = .psc (prescalerOf r)) (s : State) :
      exec i s = .next (s.returnCode (Config.divCode r)) := by
    rw [exec_selector row, divsel_prescalerOf]
  refine fun s => ⟨recognized .p1 rfl s, recognized .p2 rfl s, recognized .p4 rfl s, recognized .p8 rfl s,
    recognized .p16 rfl s, recognized .p32 rfl s, recognized .p40 rfl s, recognized .p64 rfl s, fun p unrecognized => ?_⟩
  have fallback : exec (.divselFallback p) s = .next (s.returnCode (Config.divCode .p1)) := by
    rw [exec_selector rfl, divsel_of_not_mem_recognizedSet unrecognized]
  exact ⟨fallback, fallback.trans (recognized .p1 (i := .divsel1) rfl s).symm⟩

end Sys2Proof.Machine
end

section
/-! PROOFS. One step: which request it serves, and when it is refused (10_state.md R12; 60_exceptions.md R196). -/

namespace Sys2Proof.Machine

/-- A step serves the request that stands next. -/
theorem step_request {s : State} {w : HostWord} {rest : List HostInput} {i : Instr} (asked : s.inbox = .request w :: rest)
    (read : decode w = .ok i) : step s = exec i { s with inbox := rest } := by
  simp only [step, fetch, asked, read]

/-- A step with nothing asked stands still. -/
theorem step_idle {s : State} (idle : s.inbox = []) : step s = .next s := by
  simp only [step, fetch, idle]

/-- A step that meets a reserved word is refused. -/
theorem step_reserved {s : State} {w : HostWord} {rest : List HostInput} {e : DecodeError}
    (asked : s.inbox = .request w :: rest) (reserved : decode w = .error e) : step s = .refused (.reservedWord e) := by
  simp only [step, fetch, asked, reserved]

/-- A step that meets two overlapping commands is refused. -/
theorem step_overlap {s : State} {a b : BitVec 128} {rest : List HostInput} (asked : s.inbox = .overlap a b :: rest) :
    step s = .refused .overlappingCommands := by
  simp only [step, fetch, asked]

/-- A step that meets another writer of the registers is refused. -/
theorem step_foreignWrite {s : State} {rest : List HostInput} (asked : s.inbox = .foreignWrite :: rest) :
    step s = .refused .foreignRegisterWrite := by
  simp only [step, fetch, asked]

/-- Settles O6: the fetch hands the decoded request on, and finds nothing in an empty inbox. -/
theorem stepRunsDecoded : Obligations.StepRunsDecoded :=
  ⟨fun _ _ _ _ asked read => step_request asked read, fun _ idle => step_idle idle⟩

/-- Settles O7: the placed word stands next, and serving it takes away just what was placed. -/
theorem placedWordRuns : Obligations.PlacedWordRuns := by
  intro s nbits w i row
  have read : decode (tableWord nbits w) = .ok i := by
    unfold decodeTableWord at row
    split at row
    case h_1 j read => cases row; exact read
    case h_2 => cases row
  exact step_request (s := s.withRequest nbits w) rfl read

/-- Settles O11: the input is read as a row that stands for it, whatever the state is. -/
theorem divselPure : Obligations.DivselPure := fun p => ⟨divsel p, rfl, fun _ _ asked =>
  (step_request asked (i := decodePrescaler p) rfl).trans (exec_selector (encode_decodePrescaler p).2 _)⟩

/-- When an instruction is refused, and under which name (R101, R121, R162, R164). -/
theorem exec_refused_iff (i : Instr) (s : State) (r : Refusal) : exec i s = .refused r ↔
    (i = .init ∧ s.phase = .running ∧ r = .initWhileRunning) ∨
    (∃ c p u v, i = .setw c p u v ∧ s.phase = .uninit ∧ r = .setwBeforeInit) ∨
    (∃ c, i = .getf c ∧ s.phase = .uninit ∧ r = .getfBeforeInit) ∨
    (∃ c, i = .getf c ∧ s.phase = .running ∧ c.toNat < s.cfg.channels.toNat ∧ s.cfg.prescaler = 0 ∧ r = .zeroPrescaler) := by
  cases i with
  | init => cases phase : s.phase <;> simp [exec, execInit, phase, eq_comm (a := r)]
  | setw c p u v => cases phase : s.phase <;> simp [exec, execSetw, phase, eq_comm (a := r)]
  | getf c =>
    simp only [← State.channelInvalid_eq_false_iff]
    cases phase : s.phase with
    | uninit => simp [exec, execGetf, phase, eq_comm (a := r)]
    | running =>
      cases channel : s.channelInvalid c with
      | true => simp [exec, execGetf, phase, channel]
      | false =>
        by_cases zero : s.cfg.prescaler = 0#32 <;> simp [exec, execGetf, phase, channel, zero, eq_comm (a := r)]
  | divsel1 | divsel2 | divsel4 | divsel8 | divsel16 | divsel32 | divsel40 | divsel64 | divselFallback =>
    exact iff_of_false (by rw [exec_selector rfl]; nofun) (by simp)

/-- Settles O8, by what stands next at the interface: a decoded request is refused as its instruction is. -/
theorem stepRefusals : Obligations.StepRefusals := by
  intro s r
  cases asked : s.inbox with
  | nil => simp [step_idle asked]
  | cons input rest =>
    cases input with
    | overlap a b => simp [step_overlap asked, eq_comm (a := r)]
    | foreignWrite => simp [step_foreignWrite asked, eq_comm (a := r)]
    | request w =>
      cases read : decode w with
      | ok i =>
        have notReserved : ¬∃ v rest' e, HostInput.request w :: rest = .request (.cmd v) :: rest' ∧
            decode (.cmd v) = .error e ∧ r = .reservedWord e := by
          rintro ⟨v, _, e, ⟨⟩, reserved, -⟩
          rw [read] at reserved
          cases reserved
        rw [step_request asked read, exec_refused_iff, or_iff_right notReserved]
        simp [read]
      | error e =>
        rw [step_reserved asked read]
        cases w with
        | psc p => cases read
        | cmd w => simp [read, eq_comm (a := r)]

end Sys2Proof.Machine
end

section
/-! PROOFS. The ways in which an instruction completes, and what they say of its answer (60_exceptions.md R190 to R198). -/

namespace Sys2Proof.Machine

/-- How an instruction completes from `s`, and in which state: one constructor for each way that the rules give it. -/
inductive State.Completes (s : State) : Instr → State → Prop
  | initOk (uninit : s.phase = .uninit) (ok : s.nextPinmux = .ok) :
    s.Completes .init s.callCollaborators.bringUp.returnUnit
  | initFail {e : DepErr} (uninit : s.phase = .uninit) (fail : s.nextPinmux = .fail e) :
    s.Completes .init (s.callCollaborators.raise (.dependencyFailure e))
  | setw {channel : U32} (period pulse : U32) (inv : Bool) (running : s.phase = .running)
    (valid : channel.toNat < s.cfg.channels.toNat) :
    s.Completes (.setw channel period pulse inv) (s.commit (s.waveformGroup period pulse inv)).returnUnit
  | setwInvalid {channel : U32} (period pulse : U32) (inv : Bool) (running : s.phase = .running)
    (invalid : s.cfg.channels.toNat ≤ channel.toNat) :
    s.Completes (.setw channel period pulse inv) (s.raise .invalidChannel)
  | getf {channel : U32} (running : s.phase = .running) (valid : channel.toNat < s.cfg.channels.toNat)
    (nonzero : s.cfg.prescaler ≠ 0) :
    s.Completes (.getf channel) (s.returnValue s.ticksPerSecond)
  | getfInvalid {channel : U32} (running : s.phase = .running) (invalid : s.cfg.channels.toNat ≤ channel.toNat) :
    s.Completes (.getf channel) (s.raise .invalidChannel)
  | selector {i : Instr} {p : U32} (row : encode i = .psc p) :
    s.Completes i (s.returnCode (divsel p))

/-- The channel test that fails, as a comparison of numbers. -/
theorem State.channelInvalid_eq_true_iff (s : State) (channel : U32) :
    s.channelInvalid channel = true ↔ s.cfg.channels.toNat ≤ channel.toNat := by
  rw [← Bool.not_eq_false, s.channelInvalid_eq_false_iff, Nat.not_lt]

/-- GETF in `RUNNING` on a valid channel with a prescaler answers its rate. -/
theorem exec_getf_valid {s : State} {channel : U32} (running : s.phase = .running)
    (valid : channel.toNat < s.cfg.channels.toNat) (nonzero : s.cfg.prescaler ≠ 0) :
    exec (.getf channel) s = .next (s.returnValue s.ticksPerSecond) :=
  (execGetf_next_iff channel s _).mpr
    ⟨running, .inr ⟨(s.channelInvalid_eq_false_iff channel).mpr valid, nonzero, rfl⟩⟩

/-- GETF in `RUNNING` on an invalid channel is the error entry alone. -/
theorem exec_getf_invalid {s : State} {channel : U32} (running : s.phase = .running)
    (invalid : s.cfg.channels.toNat ≤ channel.toNat) : exec (.getf channel) s = .next (s.raise .invalidChannel) :=
  (execGetf_next_iff channel s _).mpr ⟨running, .inl ⟨(s.channelInvalid_eq_true_iff channel).mpr invalid, rfl⟩⟩

/-- INIT in `UNINIT` whose draw is `fail(e)` is the two collaborator calls and the error entry. -/
theorem exec_init_fail {s : State} {e : DepErr} (uninit : s.phase = .uninit) (fail : s.nextPinmux = .fail e) :
    exec .init s = .next (s.callCollaborators.raise (.dependencyFailure e)) :=
  (execInit_next_iff s _).mpr ⟨uninit, (State.runInit_fail fail).symm⟩

/-- An instruction answers a next state in these ways and in no other. -/
theorem exec_next_iff (i : Instr) (s t : State) : exec i s = .next t ↔ s.Completes i t := by
  constructor
  · intro h
    cases i with
    | init =>
      obtain ⟨uninit, rfl⟩ := (execInit_next_iff s t).mp h
      cases draw : s.nextPinmux with
      | ok => exact State.runInit_ok draw ▸ .initOk uninit draw
      | fail e => exact State.runInit_fail draw ▸ .initFail uninit draw
    | setw c period pulse inv =>
      obtain ⟨running, rfl⟩ := (execSetw_next_iff c period pulse inv s t).mp h
      cases channel : s.channelInvalid c with
      | false =>
        rw [State.runSetw_valid channel]
        exact .setw period pulse inv running ((s.channelInvalid_eq_false_iff c).mp channel)
      | true =>
        rw [State.runSetw_invalid channel]
        exact .setwInvalid period pulse inv running ((s.channelInvalid_eq_true_iff c).mp channel)
    | getf c =>
      obtain ⟨running, ⟨channel, rfl⟩ | ⟨channel, nonzero, rfl⟩⟩ := (execGetf_next_iff c s t).mp h
      · exact .getfInvalid running ((s.channelInvalid_eq_true_iff c).mp channel)
      · exact .getf running ((s.channelInvalid_eq_false_iff c).mp channel) nonzero
    | divsel1 | divsel2 | divsel4 | divsel8 | divsel16 | divsel32 | divsel40 | divsel64 | divselFallback =>
      cases h
      exact .selector rfl
  · intro h
    cases h with
    | initOk uninit ok => exact exec_init_ok uninit ok
    | initFail uninit fail => exact exec_init_fail uninit fail
    | setw period pulse inv running valid => exact exec_setw_valid running valid period pulse inv
    | setwInvalid period pulse inv running invalid => exact exec_setw_invalid running invalid period pulse inv
    | getf running valid nonzero => exact exec_getf_valid running valid nonzero
    | getfInvalid running invalid => exact exec_getf_invalid running invalid
    | selector row => exact exec_selector row s

/-- Only an INIT with the draw `fail(e)` answers DependencyFailure. -/
theorem State.Completes.dependencyFailure {s t : State} {i : Instr} {v : U64} (completes : s.Completes i t)
    (answer : t.answer = some (.rsp ⟨.dependencyFailure, v⟩)) :
    i = .init ∧ s.phase = .uninit ∧ ∃ e : DepErr, e.val = v ∧ s.nextPinmux = .fail e ∧
      t = s.callCollaborators.raise (.dependencyFailure e) := by
  cases completes with
  | initFail uninit fail =>
    cases answer
    exact ⟨rfl, uninit, _, rfl, fail, rfl⟩
  | initOk | setw | setwInvalid | getf | getfInvalid | selector => cases answer

/-- Only a SETW or a GETF on an invalid channel answers InvalidChannel. -/
theorem State.Completes.invalidChannel {s t : State} {i : Instr} {v : U64} (completes : s.Completes i t)
    (answer : t.answer = some (.rsp ⟨.invalidChannel, v⟩)) :
    v = 0 ∧ s.phase = .running ∧ t = s.raise .invalidChannel ∧
      ∃ channel : U32, s.cfg.channels.toNat ≤ channel.toNat ∧
        (i = .getf channel ∨ ∃ period pulse inv, i = .setw channel period pulse inv) := by
  cases completes with
  | setwInvalid period pulse inv running invalid =>
    cases answer
    exact ⟨rfl, running, rfl, _, invalid, .inr ⟨period, pulse, inv, rfl⟩⟩
  | getfInvalid running invalid =>
    cases answer
    exact ⟨rfl, running, rfl, _, invalid, .inl rfl⟩
  | initOk | initFail | setw | getf | selector => cases answer

/-- The two collaborator calls as one state, for a draw that is known. -/
theorem State.callCollaborators_eq {s : State} {a : PinmuxAnswer} (draw : s.nextPinmux = a) :
    s.callCollaborators = { s with
      trace := s.trace ++ [.clkgate s.cfg.clockId, .pinmux a]
      pinmux := s.pinmux.tail
      draws := s.draws + 1 } := by
  have frame : s.callCollaborators = { s with
      trace := s.callCollaborators.trace, pinmux := s.pinmux.tail, draws := s.draws + 1 } := rfl
  rw [frame, State.callCollaborators_trace, draw, List.append_assoc]
  rfl

/-- Settles O16: the error entry after the two calls, and that no other instruction ends in it. -/
theorem dependencyFailure : Obligations.DependencyFailure := by
  refine ⟨fun s e uninit fail => ?_, fun i s t v h answer => ?_⟩
  · rw [exec_init_fail uninit fail, State.callCollaborators_eq fail]
    rfl
  · obtain ⟨isInit, uninit, e, value, fail, -⟩ := ((exec_next_iff i s t).mp h).dependencyFailure answer
    exact ⟨isInit, uninit, e, value, fail⟩

/-- Settles O17: the error entry and the calls before it write neither the phase nor the registers. -/
theorem initRetry : Obligations.InitRetry := by
  intro s t v h answer
  obtain ⟨-, uninit, e, -, fail, rfl⟩ := ((exec_next_iff _ s t).mp h).dependencyFailure answer
  refine ⟨uninit, rfl, rfl, _, (execInit_next_iff _ _).mpr ⟨uninit, rfl⟩, fun ok => ?_⟩
  rw [State.runInit_ok ok]
  exact ⟨rfl, State.bringUp_en _, rfl⟩

/-- Settles O40: both commands enter the error on an invalid channel, and nothing else does. -/
theorem invalidChannelError : Obligations.InvalidChannelError :=
  ⟨fun _ _ period pulse inv running invalid =>
    ⟨exec_setw_invalid running invalid period pulse inv, exec_getf_invalid running invalid⟩,
   fun i s t _ h answer => by
    obtain ⟨rfl, running, rfl, channel⟩ := ((exec_next_iff i s t).mp h).invalidChannel answer
    exact ⟨rfl, running, rfl, channel⟩⟩

/-- Settles O41: by the two errors, of which DependencyFailure alone comes from INIT. -/
theorem errorsArePrecise : Obligations.ErrorsArePrecise := by
  intro i s t st v h answer error
  have completes := (exec_next_iff i s t).mp h
  cases st with
  | ok => exact absurd rfl error
  | invalidChannel =>
    obtain ⟨rfl, -, rfl, channel, -, isGetf | ⟨period, pulse, inv, isSetw⟩⟩ := completes.invalidChannel answer
    · exact .inl ⟨isGetf ▸ nofun, rfl⟩
    · exact .inl ⟨isSetw ▸ nofun, rfl⟩
  | dependencyFailure =>
    obtain ⟨isInit, -, e, rfl, fail, rfl⟩ := completes.dependencyFailure answer
    rw [State.callCollaborators_eq fail]
    exact .inr ⟨isInit, e, rfl, rfl⟩

/-- Settles O42: by the ways in which an instruction completes. -/
theorem acceptedRequestsAnswer : Obligations.AcceptedRequestsAnswer := by
  intro i s t h
  cases (exec_next_iff i s t).mp h with
  | selector row => exact .inl ⟨⟨_, rfl⟩, _, row⟩
  | getf => exact .inr ⟨_, rfl, ⟨_, rfl⟩, fun _ => .inl ⟨_, rfl⟩⟩
  | initFail => exact .inr ⟨_, rfl, ⟨_, rfl⟩, fun _ => .inr rfl⟩
  | initOk | setw | setwInvalid | getfInvalid => exact .inr ⟨_, rfl, ⟨_, rfl⟩, fun nonzero => absurd rfl nonzero⟩

/-- The response word as a number: the status above the 64 bits of the value (R65). -/
theorem Response.word_toNat (r : Response) : r.word.toNat = r.status.bits.toNat * 2 ^ 64 + r.value.toNat := by
  rw [Response.word, BitVec.toNat_append, ← Nat.shiftLeft_add_eq_or_of_lt r.value.isLt, Nat.shiftLeft_eq]

theorem Status.bits_injective : Function.Injective Status.bits := by
  intro a b same
  cases a <;> cases b <;> first | rfl | cases same

/-- Settles O43: the fields by division of the word's number, and by slices of the word. -/
theorem responseWord : Obligations.ResponseWord := by
  refine ⟨fun r => ?_, ?_⟩
  · have below := r.value.isLt
    have fields := r.word_toNat
    have status : r.word.toNat / 2 ^ 64 = r.status.bits.toNat := by omega
    exact ⟨status.trans (by cases r.status <;> rfl), by omega⟩
  · rintro ⟨stA, valueA⟩ ⟨stB, valueB⟩ same
    have appended : stA.bits ++ valueA = stB.bits ++ valueB := same
    have status : stA.bits = stB.bits := by
      simpa only [BitVec.extractLsb'_append_eq_left] using congrArg (BitVec.extractLsb' 64 2) appended
    have value : valueA = valueB := by
      simpa only [BitVec.extractLsb'_append_eq_right] using congrArg (BitVec.extractLsb' 0 64) appended
    rw [Status.bits_injective status, value]

end Sys2Proof.Machine
end

section
/-! PROOFS. GETF: the reported rate, and that it influences nothing (43_frequency_query.md R160 to R165). -/

namespace Sys2Proof.Machine

@[simp] theorem toNat_zext64 (v : U32) : (zext64 v).toNat = v.toNat := BitVec.toNat_setWidth_of_le (by decide)

/-- The reported rate as a quotient of numbers. -/
theorem State.ticksPerSecond_eq (s : State) :
    s.ticksPerSecond = BitVec.ofNat 64 (s.clkHz.toNat / s.cfg.prescaler.toNat) := by
  apply BitVec.eq_of_toNat_eq
  have small : s.clkHz.toNat / s.cfg.prescaler.toNat < 2 ^ 64 :=
    (Nat.div_le_self _ _).trans_lt (s.clkHz.isLt.trans (by decide))
  rw [State.ticksPerSecond, BitVec.toNat_udiv, toNat_zext64, toNat_zext64, BitVec.toNat_ofNat, Nat.mod_eq_of_lt small]

/-- Settles O36: the answer is the quotient, and the answer is all that GETF writes. -/
theorem getfQuotient : Obligations.GetfQuotient := by
  intro s channel running valid nonzero
  rw [exec_getf_valid running valid nonzero, s.ticksPerSecond_eq]
  rfl

/-- The programmed divider code of a configured block is that of the prescaler. -/
theorem Block.ConfiguredFor.div_eq {b : Block} {prescaler : U32} (configured : b.ConfiguredFor prescaler) :
    b.div = divsel prescaler := by
  cases b with
  | enh r => obtain ⟨-, -, div, -⟩ := configured; exact div
  | std r => obtain ⟨-, -, div, -⟩ := configured; exact div

/-- The programmed rate where the programmed code stands for a prescaler (R200). -/
theorem State.programmedRate_of_divdec {s : State} {p : U32} (read : divdec s.block.div = some p) :
    s.programmedRate = some (zext64 clkHzConst / zext64 p) := by
  simp only [State.programmedRate, read]

/-- Settles O37: DIVDEC gives the prescaler back, and each of the eight divides 40,000,000. -/
theorem recognizedRateExact : Obligations.RecognizedRateExact := by
  intro s channel kept running valid recognized
  obtain ⟨clock, configured⟩ := s.runningConfigured_iff.mp kept running
  have read : divdec s.block.div = some s.cfg.prescaler := by rw [configured.div_eq, divdec_divsel_of_mem recognized]
  obtain ⟨r, prescaler⟩ := (mem_recognizedSet_iff _).mp recognized
  have nonzero : s.cfg.prescaler ≠ 0 := by rw [← prescaler]; cases r <;> decide
  refine ⟨_, _, exec_getf_valid running valid nonzero, rfl, ?_, ?_⟩
  · rw [State.ticksPerSecond, clock, ← prescaler]
    cases r <;> decide
  · rw [State.programmedRate_of_divdec read, State.ticksPerSecond, clock]
    rfl

/-- Settles O38: DIVDEC reads the fallback as 1, while GETF divides by a prescaler of 3 or more. -/
theorem unrecognizedRateDiffers : Obligations.UnrecognizedRateDiffers := by
  intro s channel kept running valid unrecognized nonzero
  obtain ⟨clock, configured⟩ := s.runningConfigured_iff.mp kept running
  have read : divdec s.block.div = some 1 := by rw [configured.div_eq, divdec_divsel_of_not_mem unrecognized]
  refine ⟨_, _, exec_getf_valid running valid nonzero, rfl, ?_, (State.programmedRate_of_divdec read).trans rfl⟩
  have notOne : s.cfg.prescaler ≠ 1 := fun one => unrecognized (one ▸ by decide)
  have two : 1 < s.cfg.prescaler.toNat := by bv_omega
  rw [s.ticksPerSecond_eq, clock, BitVec.toNat_ofNat]
  exact (Nat.mod_le _ _).trans_lt (Nat.div_lt_self (by decide) two)

/-- No instruction reads the last answer, and every one that completes overwrites it. -/
theorem exec_respond (i : Instr) (s : State) (r : Response) : exec i (s.respond r) = exec i s := by
  cases i <;> rfl

/-- Settles O39: all that a GETF changes is the answer. -/
theorem getfTransparent : Obligations.GetfTransparent := by
  intro s t channel i h
  cases (exec_next_iff _ s t).mp h with
  | getf => exact exec_respond i s _
  | getfInvalid => exact exec_respond i s _
  | selector row => cases row

end Sys2Proof.Machine
end

section
/-! PROOFS. What a step can do to the phase, the configuration, the trace and the start-polarity bit (10_state.md). -/

namespace Sys2Proof.Machine

/-- A step that answers a next state stands still, or completes the instruction of the request that stands next. -/
theorem step_completes {s t : State} (h : step s = .next t) :
    t = s ∨ ∃ w rest i, s.inbox = .request w :: rest ∧ decode w = .ok i ∧
      ({ s with inbox := rest } : State).Completes i t := by
  obtain ⟨-, same⟩ | ⟨w, rest, i, asked, read, runs⟩ := step_next_cases h
  · exact .inl same
  · exact .inr ⟨w, rest, i, asked, read, (exec_next_iff _ _ _).mp runs⟩

/-- Settles O44: of the ways in which an instruction completes, only the bring-up writes the phase. -/
theorem phaseNeverReturns : Obligations.PhaseNeverReturns := by
  intro s t h changed
  obtain rfl | ⟨w, rest, i, asked, read, completes⟩ := step_completes h
  · exact absurd rfl changed
  · cases completes with
    | initOk uninit ok => exact ⟨uninit, rfl, rfl, ok, w, rest, asked, read⟩
    | initFail | setw | setwInvalid | getf | getfInvalid | selector => exact absurd rfl changed

/-- The bring-up keeps the variant. -/
@[simp] theorem State.isEnhanced_bringUp (s : State) : s.bringUp.isEnhanced = s.isEnhanced :=
  (State.isEnhanced_regGroup (({ s with clkHz := clkHzConst } : State).regGroup s.baseline) _).trans
    (State.isEnhanced_regGroup { s with clkHz := clkHzConst } s.baseline)

@[simp] theorem State.isEnhanced_returnUnit (s : State) : s.returnUnit.isEnhanced = s.isEnhanced := rfl

@[simp] theorem State.isEnhanced_callCollaborators (s : State) : s.callCollaborators.isEnhanced = s.isEnhanced := rfl

/-- Settles O45: the groups keep the variant, and nothing writes the other two. -/
theorem configurationFixed : Obligations.ConfigurationFixed := by
  refine fun s t h => step_keeps (P := fun u => u.cfg = s.cfg ∧ u.isEnhanced = s.isEnhanced ∧ u.ident = s.ident)
    (inbox := fun _ _ kept => kept) (answer := fun _ _ kept => kept) (initOk := ?initOk)
    (initFail := fun _ _ kept _ _ => kept) (commit := ?commit) ⟨rfl, rfl, rfl⟩ h
  case initOk =>
    rintro u ⟨cfg, variant, ident⟩ - -
    simp [cfg, variant, ident]
  case commit =>
    rintro u period pulse inv ⟨cfg, variant, ident⟩ -
    simp [cfg, variant, ident]

/-- The events of an INIT whose draw is `ok`. -/
theorem State.trace_bringUp_callCollaborators {s : State} (ok : s.nextPinmux = .ok) :
    s.callCollaborators.bringUp.trace =
      s.trace ++ [Event.clkgate s.cfg.clockId, .pinmux .ok, .wg s.baseline, .wg (s.block.enGroup 1)] := by
  have group : s.callCollaborators.baseline = s.baseline := State.baseline_congr rfl rfl
  simp only [State.bringUp_trace, State.callCollaborators_trace, State.callCollaborators_block, group, ok,
    List.append_assoc, List.cons_append, List.nil_append]

/-- The events of a commit, as one list. -/
theorem State.trace_commit (s : State) (g : WriteGroup) :
    (s.commit g).trace = s.trace ++ [Event.wg (s.block.enGroup 0), .wg g, .wg (s.block.enGroup 1)] := by
  rw [State.commit_eq]

/-- Settles O46: by the ways in which an instruction completes. -/
theorem traceOnlyGrows : Obligations.TraceOnlyGrows := by
  intro s t h
  obtain rfl | ⟨w, rest, i, -, -, completes⟩ := step_completes h
  · exact .inl rfl
  · cases completes with
    | initOk _ ok => exact .inr (.inr (.inl ⟨_, State.trace_bringUp_callCollaborators ok⟩))
    | initFail _ fail =>
      exact .inr (.inl ⟨_, congrArg State.trace (State.callCollaborators_eq fail)⟩)
    | setw => exact .inr (.inr (.inr ⟨_, State.trace_commit _ _⟩))
    | setwInvalid | getf | getfInvalid | selector => exact .inl rfl

/-- What a step can do to the start-polarity bit: keep it, or serve an INIT, or serve an inverted SETW and set it. -/
theorem step_startpol {s t : State} {r r' : EnhRegs} (h : step s = .next t) (before : s.block = .enh r)
    (after : t.block = .enh r') :
    r'.startpol = r.startpol ∨ ∃ w rest, s.inbox = .request w :: rest ∧
      ((s.phase = .uninit ∧ decode w = .ok .init) ∨
       (r'.startpol = 1 ∧ ∃ c p u, decode w = .ok (.setw c p u true))) := by
  have kept (same : t.block = s.block) : r'.startpol = r.startpol := by
    rw [before, after] at same
    cases same
    rfl
  obtain rfl | ⟨w, rest, i, asked, read, completes⟩ := step_completes h
  · exact .inl (kept rfl)
  · cases completes with
    | initOk uninit => exact .inr ⟨w, rest, asked, .inl ⟨uninit, read⟩⟩
    | setw period pulse inv =>
      have bit := State.startpol_commit before after
      cases inv with
      | false => exact .inl bit
      | true => exact .inr ⟨w, rest, asked, .inr ⟨bit, _, _, _, read⟩⟩
    | initFail | setwInvalid | getf | getfInvalid | selector => exact .inl (kept rfl)

/-- Settles O48: an INIT, which can clear the bit, is none in `RUNNING`. -/
theorem startPolWriters : Obligations.StartPolWriters := by
  intro s t r r' h before after
  refine ⟨fun differ => ?_, fun running set => ?_⟩
  · obtain ⟨w, rest, asked, ⟨-, init⟩ | inverted⟩ := (step_startpol h before after).resolve_left differ
    · exact ⟨w, rest, asked, .inl init⟩
    · exact ⟨w, rest, asked, .inr inverted⟩
  · obtain same | ⟨-, -, -, ⟨uninit, -⟩ | ⟨high, -⟩⟩ := step_startpol h before after
    · exact same.trans set
    · exact absurd (running.symm.trans uninit) nofun
    · exact high

end Sys2Proof.Machine
end

section
/-! PROOFS. Nothing but the registers depends on what the registers hold (20_memory.md R44). -/

namespace Sys2Proof.Machine

/-- Two blocks of one variant. -/
def Block.SameVariant : Block → Block → Prop
  | .enh _, .enh _ => True
  | .std _, .std _ => True
  | .enh _, .std _ => False
  | .std _, .enh _ => False

/-- The flag `IS_ENHANCED` is the variant of the block. -/
theorem State.sameVariant_of_isEnhanced {s t : State} (same : t.isEnhanced = s.isEnhanced) :
    t.block.SameVariant s.block := by
  unfold State.isEnhanced at same
  cases blockT : t.block <;> cases blockS : s.block <;> rw [blockT, blockS] at same <;> trivial

/-- Two states that agree but for the block and the trace, and have the same trace, differ in the block alone. -/
theorem State.eq_with_block {s t : State} (frame : t = { s with block := t.block, trace := t.trace })
    (trace : t.trace = s.trace) : t = { s with block := t.block } :=
  frame.trans (by rw [trace])

section
variable {s : State} {b : Block} (variant : b.SameVariant s.block)
include variant

theorem Block.SameVariant.enGroup_eq (v : Bit) : b.enGroup v = s.block.enGroup v := by
  cases b <;> cases block : s.block <;> rw [block] at variant <;> first | rfl | exact variant.elim

theorem Block.SameVariant.baseline_eq : ({ s with block := b } : State).baseline = s.baseline := by
  unfold State.baseline
  cases b <;> cases block : s.block <;> rw [block] at variant <;> first | rfl | exact variant.elim

theorem Block.SameVariant.waveformGroup_eq (period pulse : U32) (inv : Bool) :
    ({ s with block := b } : State).waveformGroup period pulse inv = s.waveformGroup period pulse inv := by
  unfold State.waveformGroup
  cases b <;> cases block : s.block <;> rw [block] at variant <;> first | rfl | exact variant.elim

/-- The events of an INIT and of a SETW are those that the other block gives. -/
theorem Block.SameVariant.trace_bringUp (ok : s.nextPinmux = .ok) :
    ({ s with block := b } : State).callCollaborators.bringUp.trace = s.callCollaborators.bringUp.trace := by
  refine (State.trace_bringUp_callCollaborators (s := { s with block := b }) ok).trans ?_
  rw [State.trace_bringUp_callCollaborators ok, variant.baseline_eq, variant.enGroup_eq]

theorem Block.SameVariant.trace_commit (g : WriteGroup) :
    (({ s with block := b } : State).commit g).trace = (s.commit g).trace := by
  rw [State.trace_commit, State.trace_commit, variant.enGroup_eq, variant.enGroup_eq]

/-- With other register contents an instruction completes in the same way, in a state that differs in the registers alone. -/
theorem State.Completes.with_block {i : Instr} {t : State} (completes : s.Completes i t) :
    ∃ b', ({ s with block := b } : State).Completes i { t with block := b' } := by
  cases completes with
  | initOk uninit ok =>
    have done : ({ s with block := b } : State).Completes .init _ := .initOk uninit ok
    rw [State.eq_with_block rfl (variant.trace_bringUp ok)] at done
    exact ⟨_, done⟩
  | setw period pulse inv running valid =>
    have done : ({ s with block := b } : State).Completes (.setw _ period pulse inv) _ :=
      .setw period pulse inv running valid
    rw [variant.waveformGroup_eq, State.eq_with_block rfl (variant.trace_commit _)] at done
    exact ⟨_, done⟩
  | initFail uninit fail => exact ⟨b, .initFail uninit fail⟩
  | setwInvalid period pulse inv running invalid => exact ⟨b, .setwInvalid period pulse inv running invalid⟩
  | getf running valid nonzero => exact ⟨b, .getf running valid nonzero⟩
  | getfInvalid running invalid => exact ⟨b, .getfInvalid running invalid⟩
  | selector row => exact ⟨b, .selector row⟩

end

/-- Settles O49: a refusal is one for reasons that name no register, and a completion is the same in either block. -/
theorem registersDoNotInfluence : Obligations.RegistersDoNotInfluence := by
  intro s b same
  have variant : b.SameVariant s.block := State.sameVariant_of_isEnhanced same
  refine ⟨fun r => (stepRefusals s r).trans (stepRefusals { s with block := b } r).symm, fun t h => ?_⟩
  obtain ⟨idle, rfl⟩ | ⟨w, rest, i, asked, read, runs⟩ := step_next_cases h
  · exact ⟨b, step_idle idle⟩
  · obtain ⟨b', completes⟩ := State.Completes.with_block (s := { s with inbox := rest }) variant
      ((exec_next_iff _ _ _).mp runs)
    exact ⟨b', (step_request (s := { s with block := b }) asked read).trans ((exec_next_iff _ _ _).mpr completes)⟩

end Sys2Proof.Machine
end
section
/-! PROOFS. The order inside a write group, and its fields as bits at addresses (20_memory.md R41, R43). -/

namespace Sys2Proof.Machine

section
variable {R W : Type} {write : R → W → R} {read : R → Nat → Option FieldValue} {number : W → Nat} {value : W → FieldValue}

/-- When no field is named twice, every field reads the same after the writes in another order. -/
theorem read_foldl_perm (same : ∀ r w, read (write r w) (number w) = some (value w))
    (other : ∀ r w n, n ≠ number w → read (write r w) n = read r n) {ws vs : List W} (once : (ws.map number).Nodup)
    (perm : ws.Perm vs) (r : R) (n : Nat) : read (ws.foldl write r) n = read (vs.foldl write r) n := by
  by_cases named : n ∈ ws.map number
  · obtain ⟨w, mem, rfl⟩ := List.mem_map.mp named
    rw [read_foldl_of_mem same other ws r once mem,
      read_foldl_of_mem same other vs r ((perm.map number).nodup once) (perm.mem_iff.mp mem)]
  · rw [read_foldl_of_not_mem other ws r named,
      read_foldl_of_not_mem other vs r fun mem => named ((perm.map number).mem_iff.mpr mem)]

end

/-- An Enhanced block is determined by what its fields read. -/
theorem EnhRegs.eq_of_x {r r' : EnhRegs} (fields : ∀ n, r.x n = r'.x n) : r = r' := by
  obtain ⟨_, _, _, _, _, _, _, _, _⟩ := r
  obtain ⟨_, _, _, _, _, _, _, _, _⟩ := r'
  cases fields 0; cases fields 1; cases fields 2; cases fields 3; cases fields 4; cases fields 5; cases fields 6
  cases fields 7; cases fields 8
  rfl

/-- A Standard block is determined by what its fields read. -/
theorem StdRegs.eq_of_x {r r' : StdRegs} (fields : ∀ n, r.x n = r'.x n) : r = r' := by
  obtain ⟨_, _, _, _, _, _, _, _⟩ := r
  obtain ⟨_, _, _, _, _, _, _, _⟩ := r'
  cases fields 0; cases fields 1; cases fields 2; cases fields 3; cases fields 4; cases fields 5; cases fields 6
  cases fields 7
  rfl

/-- Settles O32: both variants obey the two laws of a write, from which the rest follows. -/
theorem groupOrderIrrelevant : Obligations.GroupOrderIrrelevant :=
  ⟨fun r ws _ once perm =>
    ⟨EnhRegs.eq_of_x (read_foldl_perm EnhRegs.x_write_number EnhRegs.x_write_of_ne once perm r),
     fun _ mem => read_foldl_of_mem EnhRegs.x_write_number EnhRegs.x_write_of_ne ws r once mem,
     fun _ unnamed => read_foldl_of_not_mem EnhRegs.x_write_of_ne ws r unnamed⟩,
   fun r ws _ once perm =>
    ⟨StdRegs.eq_of_x (read_foldl_perm StdRegs.x_write_number StdRegs.x_write_of_ne once perm r),
     fun _ mem => read_foldl_of_mem StdRegs.x_write_number StdRegs.x_write_of_ne ws r once mem,
     fun _ unnamed => read_foldl_of_not_mem StdRegs.x_write_of_ne ws r unnamed⟩⟩

/-- After a group, a field that it names stands at its place with the bits of its value. -/
theorem State.fieldAccess_regGroup_of_mem {s : State} {g : WriteGroup} (fits : s.block.Fits g) (once : g.numbers.Nodup)
    {nv : Nat × FieldValue} (named : nv ∈ g.pairs) :
    (s.regGroup g).fieldAccess nv.1 = some (s.access nv.1 nv.2) := by
  rw [State.fieldAccess_regGroup, Block.x_apply_of_mem fits once named, Option.map_some]

/-- After a group, a field that it does not name stands as before. -/
theorem State.fieldAccess_regGroup_of_not_mem (s : State) {g : WriteGroup} {n : Nat} (unnamed : n ∉ g.numbers) :
    (s.regGroup g).fieldAccess n = s.fieldAccess n := by
  rw [State.fieldAccess_regGroup, Block.x_apply_of_not_mem _ _ unnamed, State.fieldAccess]

/-- Settles O56: where the fields lie is the variant's, which the group keeps. -/
theorem groupAtItsPlaces : Obligations.GroupAtItsPlaces := by
  refine ⟨fun s r ws enh once => ⟨fun w mem => ?_, fun _ => s.fieldAccess_regGroup_of_not_mem (g := .enh ws)⟩,
    fun s r ws std once => ⟨fun w mem => ?_, fun _ => s.fieldAccess_regGroup_of_not_mem (g := .std ws)⟩⟩
  · have fits : s.block.Fits (.enh ws) := by rw [enh]; trivial
    refine (State.fieldAccess_regGroup_of_mem fits once (List.mem_map_of_mem mem)).trans ?_
    rw [State.access, enh]
    rfl
  · have fits : s.block.Fits (.std ws) := by rw [std]; trivial
    refine (State.fieldAccess_regGroup_of_mem fits once (List.mem_map_of_mem mem)).trans ?_
    rw [State.access, std]
    rfl

end Sys2Proof.Machine
end

section
/-! PROOFS. Several instances (60_exceptions.md R202). -/

namespace Sys2Proof.Machine

/-- Settles O57: a step writes its own place, and writes at two places commute. -/
theorem instancesIndependent : Obligations.InstancesIndependent := by
  refine ⟨fun p k s t found own => (Platform.stepAt_next_iff p _ k).mpr ⟨s, t, found, own, rfl⟩,
    fun p q j k apart h => ?_⟩
  obtain ⟨s, t, found, own, rfl⟩ := (Platform.stepAt_next_iff p q j).mp h
  have other : (p.set j t)[k]? = p[k]? := List.getElem?_set_ne apart
  refine ⟨other, fun r => ?_, fun u hu => ?_⟩
  · rw [Platform.stepAt_refused_iff, Platform.stepAt_refused_iff, other]
  · obtain ⟨s', t', found', own', rfl⟩ := (Platform.stepAt_next_iff p u k).mp hu
    refine ⟨(p.set j t).set k t', (Platform.stepAt_next_iff _ _ k).mpr ⟨s', t', other.trans found', own', rfl⟩,
      (Platform.stepAt_next_iff _ _ j).mpr ⟨s, t, ?_, own, List.set_comm _ _ apart⟩⟩
    rw [List.getElem?_set_ne apart.symm, found]

/-- The instances of a platform at reset are numbered by their places. -/
theorem Platform.map_ident_reset (cs : List (Bool × InstanceConfig)) :
    (Platform.reset cs).map State.ident = List.range cs.length := by
  apply List.ext_getElem <;> simp [Platform.reset, State.resetWith]

/-- A step at any place keeps the numbers at all places. -/
theorem Platform.map_ident_stepAt {p q : Platform} {k : Nat} (h : p.stepAt k = some (.next q)) :
    q.map State.ident = p.map State.ident := by
  obtain ⟨s, t, found, own, rfl⟩ := (Platform.stepAt_next_iff p q k).mp h
  obtain ⟨-, -, ident⟩ := configurationFixed s t own
  obtain ⟨inside, rfl⟩ := List.getElem?_eq_some_iff.mp found
  rw [List.map_set, ident, ← List.getElem_map State.ident, List.set_getElem_self]
  rwa [List.length_map]

/-- Settles O58: by the list of the instances' numbers. -/
theorem instancesDrawApart : Obligations.InstancesDrawApart := by
  refine ⟨fun cs => ⟨?_, ?_, fun k s found => ?_⟩, fun p q k h => ⟨fun j => ?_, ?_⟩, fun s none => ?_⟩
  · rw [Platform.Distinct, Platform.map_ident_reset]
    exact List.nodup_range
  · exact List.length_mapIdx
  · have number : ((Platform.reset cs).map State.ident)[k]? = some s.ident := by
      rw [List.getElem?_map, found, Option.map_some]
    rw [Platform.map_ident_reset] at number
    obtain ⟨_, place⟩ := List.getElem?_eq_some_iff.mp number
    exact place.symm.trans (List.getElem_range _)
  · rw [← List.getElem?_map, ← List.getElem?_map, Platform.map_ident_stepAt h]
  · rw [Platform.Distinct, Platform.Distinct, Platform.map_ident_stepAt h]
    exact id
  · rw [State.nextPinmux, none]

end Sys2Proof.Machine
end

section
/-! PROOFS. The whole next state of a successful INIT and of a SETW on a valid channel (41_initialize.md R104 to R107;
42_set_waveform.md R122 to R138). -/

namespace Sys2Proof.Machine

/-- The state that a successful INIT leaves, but for the registers. -/
theorem exec_init_ok_eq {s : State} (uninit : s.phase = .uninit) (ok : s.nextPinmux = .ok) :
    exec .init s = .next { s with
      phase := .running
      clkHz := clkHzConst
      block := s.callCollaborators.bringUp.block
      trace := s.trace ++ [.clkgate s.cfg.clockId, .pinmux .ok, .wg s.baseline, .wg (s.block.enGroup 1)]
      pinmux := s.pinmux.tail
      draws := s.draws + 1
      answer := some (.rsp ⟨.ok, 0⟩) } := by
  rw [exec_init_ok uninit ok, ← State.trace_bringUp_callCollaborators ok]
  rfl

/-- Settles O14: the bring-up writes all nine fields. -/
theorem initEnhanced : Obligations.InitEnhanced := by
  intro s r uninit enh ok
  rw [exec_init_ok_eq uninit ok, State.bringUp_block_enh (s := s.callCollaborators) enh, State.baseline, enh]
  rfl

/-- Settles O15: the bring-up writes all eight fields. -/
theorem initStandard : Obligations.InitStandard := by
  intro s r uninit std ok
  rw [exec_init_ok_eq uninit ok, State.bringUp_block_std (s := s.callCollaborators) std, State.baseline, std]
  rfl

/-- The state that a SETW on a valid channel leaves, but for the registers. -/
theorem exec_setw_eq {s : State} {channel : U32} (running : s.phase = .running)
    (valid : channel.toNat < s.cfg.channels.toNat) (period pulse : U32) (inv : Bool) :
    exec (.setw channel period pulse inv) s = .next { s with
      block := (s.commit (s.waveformGroup period pulse inv)).block
      trace := s.trace ++
        [.wg (s.block.enGroup 0), .wg (s.waveformGroup period pulse inv), .wg (s.block.enGroup 1)]
      answer := some (.rsp ⟨.ok, 0⟩) } := by
  rw [exec_setw_valid running valid, ← State.trace_commit]
  rfl

/-- The state that a SETW leaves on an Enhanced block, by the class of its operands. -/
theorem exec_setw_enh_eq {s : State} {r : EnhRegs} {channel period pulse : U32} {c : DutyClass} (running : s.phase = .running)
    (enh : s.block = .enh r) (valid : channel.toNat < s.cfg.channels.toNat) (cls : classify period pulse = c) (inv : Bool) :
    exec (.setw channel period pulse inv) s = .next { s with
      block := .enh { ({ r with startpol := if inv then startHigh else r.startpol, en := 0 } : EnhRegs).writes
        (countWrites c period pulse) with en := 1 }
      trace := s.trace ++
        [.wg (.enh [.en 0]), .wg (.enh (startPolWrites inv ++ countWrites c period pulse)), .wg (.enh [.en 1])]
      answer := some (.rsp ⟨.ok, 0⟩) } := by
  rw [exec_setw_eq running valid, State.commit_waveformGroup_enh enh, State.waveformGroup_enh enh, enh, cls]
  rfl

/-- The state that a SETW leaves on a Standard block, by the class of its operands. -/
theorem exec_setw_std_eq {s : State} {r : StdRegs} {channel period pulse : U32} {c : DutyClass} (running : s.phase = .running)
    (std : s.block = .std r) (valid : channel.toNat < s.cfg.channels.toNat) (cls : classify period pulse = c) (inv : Bool) :
    exec (.setw channel period pulse inv) s = .next { s with
      block := .std { r with
        hcnt := (assignByPolarity inv (stdPair c period pulse)).1
        lcnt := (assignByPolarity inv (stdPair c period pulse)).2
        en := 1 }
      trace := s.trace ++ [.wg (.std [.en 0]), .wg (.std (stdValues c period pulse inv)), .wg (.std [.en 1])]
      answer := some (.rsp ⟨.ok, 0⟩) } := by
  rw [exec_setw_eq running valid, State.commit_waveformGroup_std std, State.waveformGroup_std std, std, cls]
  rfl

/-- Settles O19: the count writes of the ZERO class. -/
theorem setwEnhancedZero : Obligations.SetwEnhancedZero :=
  fun _ _ _ _ _ inv running enh valid zero => exec_setw_enh_eq running enh valid (classify_eq_zero zero) inv

/-- Settles O20: the count writes of the FULL class. -/
theorem setwEnhancedFull : Obligations.SetwEnhancedFull :=
  fun _ _ _ _ inv running enh valid nonzero => exec_setw_enh_eq running enh valid (classify_self nonzero) inv

/-- Settles O21: the count writes of the GENERAL class. -/
theorem setwEnhancedGeneral : Obligations.SetwEnhancedGeneral :=
  fun _ _ _ _ _ inv running enh valid period0 pulse0 differ =>
    exec_setw_enh_eq running enh valid (classify_eq_general period0 pulse0 differ) inv

/-- Settles O23: the pairs of the ZERO and the FULL class, in either polarity. -/
theorem setwStandardBoundary : Obligations.SetwStandardBoundary := by
  refine fun s r channel period pulse inv running std valid => ⟨fun zero => ?_, fun nonzero full => ?_⟩
  · have completes := exec_setw_std_eq running std valid (classify_eq_zero zero) inv
    cases inv <;> exact completes
  · subst full
    have completes := exec_setw_std_eq running std valid (classify_self (not_or.mp nonzero).1) inv
    cases inv <;> exact completes

/-- Settles O24: the pair of the GENERAL class, in either polarity. -/
theorem setwStandardGeneral : Obligations.SetwStandardGeneral := by
  intro s r channel period pulse inv running std valid period0 pulse0 differ
  have completes := exec_setw_std_eq running std valid (classify_eq_general period0 pulse0 differ) inv
  cases inv <;> exact completes

/-- Settles O27: the channel is read by the test alone. -/
theorem setwChannelIrrelevant : Obligations.SetwChannelIrrelevant := by
  intro s c d period pulse inv validC validD
  cases phase : s.phase with
  | uninit => simp only [exec, execSetw, phase]
  | running => rw [exec_setw_valid phase validC, exec_setw_valid phase validD]

/-- In the ZERO and FULL classes the value group does not hold the operands. -/
theorem State.waveformGroup_eq_of_classify {period pulse period' pulse' : U32} {c : DutyClass} (boundary : c ≠ .general)
    (cls : classify period pulse = c) (cls' : classify period' pulse' = c) (s : State) (inv : Bool) :
    s.waveformGroup period pulse inv = s.waveformGroup period' pulse' inv := by
  unfold State.waveformGroup
  rw [cls, cls']
  cases c with
  | zero | full => rfl
  | general => exact absurd rfl boundary

/-- The operands' numbers reach the outcome through the value group alone. -/
theorem exec_setw_congr {s : State} {period pulse period' pulse' : U32} {inv : Bool}
    (group : s.waveformGroup period pulse inv = s.waveformGroup period' pulse' inv) (channel : U32) :
    exec (.setw channel period pulse inv) s = exec (.setw channel period' pulse' inv) s := by
  simp only [exec, execSetw, State.runSetw, group]

/-- Settles O30: the requests compared are both FULL, or both ZERO. -/
theorem boundaryIgnoresCounts : Obligations.BoundaryIgnoresCounts := by
  intro s c p q u v inv
  have full (p0 : p ≠ 0) (q0 : q ≠ 0) :=
    State.waveformGroup_eq_of_classify (c := .full) nofun (classify_self p0) (classify_self q0) s inv
  have zero {period pulse : U32} (isZero : period = 0 ∨ pulse = 0) :=
    State.waveformGroup_eq_of_classify (c := .zero) nofun (classify_eq_zero (pulse := u) (.inl rfl))
      (classify_eq_zero isZero) s inv
  exact ⟨fun p0 q0 => exec_setw_congr (full p0 q0) c, exec_setw_congr (zero (.inl rfl)) c,
    exec_setw_congr (zero (.inr rfl)) c⟩

end Sys2Proof.Machine
end

section
/-! PROOFS. The reset state (10_state.md R22, R220). -/

namespace Sys2Proof.Machine

/-- The timer is disabled at reset in either variant. -/
theorem State.en_resetWith (k : Nat) (enhanced : Bool) (cfg : InstanceConfig) :
    (State.resetWith k enhanced cfg).block.en = 0 := by
  cases enhanced <;> rfl

/-- Settles O54: the fields as reset gives them, and an empty inbox. -/
theorem resetState : Obligations.ResetState :=
  ⟨rfl, State.en_resetWith _ _ _, rfl, rfl, rfl, step_idle rfl⟩

/-- Settles O55: what the invariants say of `UNINIT` is that the timer is disabled and no group is recorded. -/
theorem resetMeetsInvariants : Obligations.ResetMeetsInvariants := fun k enhanced cfg =>
  ⟨nofun, ⟨rfl, trivial⟩, ⟨fun _ => State.en_resetWith k enhanced cfg, nofun⟩, nofun, ⟨fun _ => rfl, nofun⟩⟩

end Sys2Proof.Machine
end
